-- ==== Sys2Proof/Word.lean ====
section
/-! DEFINITION. The word types of the ADEF core: 32-bit registers (spec/00_scope.md R10), 8-bit bytes
(spec/20_memory.md R100) and bitstrings (spec/00_scope.md R15). -/

namespace Sys2Proof

/-- A register or table count: 32 bits, unsigned (R10, R12). -/
abbrev Word := BitVec 32

/-- One byte of MEM; a Symbol of the source (R20, R100). -/
abbrev Byte := BitVec 8

/-- A bitstring: element 0 is its first bit (R15). -/
abbrev Bits := List Bool

end Sys2Proof
end

