-- ==== Sys2Proof/Config.lean ====
section
/-! DEFINITION. What the spec leaves open: the parameters (spec/00_scope.md R11) and the free values
(spec/93_implementation_defined.md section 2). A constant declared `opaque` has no body, so nothing can be
proved about its value. -/

namespace Sys2Proof.Config

/-- The byte at an address after the reset with the given number: "any value", drawn once at each reset
(20_memory.md R101, 70_reset_and_hazards.md R340). Arguments: how many resets came before, the address.
DEDUCED, notes/assumptions/4.md. -/
opaque powerOnByte : Nat → Nat → Byte

/-- The `n`-th free byte: what a byte of the destination range becomes when a command raises at step 6 or 7
(40_control.md R156). DEDUCED, notes/assumptions/5.md. -/
opaque freeByte : Nat → Byte

/-- The `n`-th free word: what a read of a result register returns while BUSY = 1 (40_control.md R153).
DEDUCED, notes/assumptions/6.md. -/
opaque freeWord : Nat → Word

/-- REG_BASE: where the platform places the register block (00_scope.md R11). No rule depends on it. -/
opaque regBase : Nat

/-- MEM_BASE: where the platform places MEM byte 0 (00_scope.md R11). No rule depends on it. -/
opaque memBase : Nat

/-- MEM_SIZE - 1 in `State.reset`: the largest the 32-bit address admits. MEM_SIZE itself is the field
`memTop` of State, so that a statement about every state holds for every MEM_SIZE of R11.
DESIGN CHOICE, notes/assumptions/3.md. -/
def memTopAtReset : Word := 0xFFFFFFFF

end Sys2Proof.Config
end

