-- ==== Sys2Proof/Machine/Table.lean ====
section
/-! DEFINITION. A table of fixed size as plain data: a list with the proof of its length. The tables FREQ, NODE,
CODE and CUM of spec/10_state.md R72 to R75 are such tables. -/

namespace Sys2Proof.Machine

/-- A table of exactly `n` entries. -/
structure Table (α : Type) (n : Nat) where
  entries : List α
  size_eq : entries.length = n
  deriving DecidableEq, Repr

/-- Entry `i`, or `d` for an index past the end. -/
def Table.get {α : Type} {n : Nat} (t : Table α n) (i : Nat) (d : α) : α := t.entries.getD i d

/-- The table with entry `i` replaced; an index past the end changes nothing. -/
def Table.set {α : Type} {n : Nat} (t : Table α n) (i : Nat) (v : α) : Table α n :=
  ⟨t.entries.set i v, by rw [List.length_set]; exact t.size_eq⟩

/-- The table whose every entry is `v`. -/
def Table.replicate {α : Type} (n : Nat) (v : α) : Table α n := ⟨List.replicate n v, List.length_replicate⟩

/-- The table whose entry `i` is `f i`. -/
def Table.tabulate {α : Type} (n : Nat) (f : Nat → α) : Table α n :=
  ⟨(List.range n).map f, by rw [List.length_map, List.length_range]⟩

/-- The table of the images of the entries. -/
def Table.map {α β : Type} {n : Nat} (f : α → β) (t : Table α n) : Table β n :=
  ⟨t.entries.map f, by rw [List.length_map]; exact t.size_eq⟩

end Sys2Proof.Machine
end

