-- ==== Sys2Proof/Syntax.lean ====
section
/-! DEFINITION. The syntax of everything the core is told: the 14 commands (spec/30_encoding.md R133), a raw
command word (R130), the operations of the two host ports and the reset input (spec/00_scope.md R8,
spec/70_reset_and_hazards.md R340), and the host assembly statements (R136, R137). -/

namespace Sys2Proof

/-- The commands of the ADEF core, one per row of the opcode map (30_encoding.md R133). No command has an
operand field: operands are registers (R132). -/
inductive Instr
  | nop
  | clearModel
  | scan
  | loadFreq
  | saveFreq
  | buildTree
  | buildCodes
  | buildPart
  | huffEnc
  | huffDec
  | arithEnc
  | arithDec
  | pack
  | unpack
  deriving DecidableEq, Repr

/-- A command word taken apart into its two fields (30_encoding.md R130): OPCODE [7:0], RESERVED [31:8]. -/
structure CmdWord where
  opcode   : BitVec 8
  reserved : BitVec 24
  deriving DecidableEq, Repr

/-- The named registers of the register map (10_state.md R43). -/
inductive RegName
  | id | version | cmd | status | irqEn | sizeLimit | srcAddr | srcLen | dstAddr | dstCap
  | bitLen | symCount | outLen | model | total
  | freqIdx | freqData | nodeIdx | nodeInfo | nodeWeight | treeInfo
  | codeIdx | codeLen | codeW (n : Fin 8) | partIdx | partLow | partHigh
  deriving DecidableEq, Repr

/-- One thing HOST does to the core (00_scope.md R8). A register access carries the width in bits and the
byte offset the host used, so that an access R43 does not define can be written down. -/
inductive HostOp
  /-- write `v` at the register port with an access of `width` bits at byte offset `off` -/
  | regWrite (width off : Nat) (v : Word)
  /-- read the register port with an access of `width` bits at byte offset `off` -/
  | regRead (width off : Nat)
  /-- write one byte on the memory port -/
  | memWrite (addr : Nat) (v : Byte)
  /-- read one byte on the memory port -/
  | memRead (addr : Nat)
  /-- read STATUS again and again until BUSY reads 0 (the loop `wait` of 30_encoding.md R137) -/
  | wait
  /-- assert the reset input (70_reset_and_hazards.md R340) -/
  | reset
  deriving DecidableEq, Repr

/-- The statements of host programs (30_encoding.md R136) and the pseudo-statements (R137). -/
inductive HostStmt
  | wr (r : RegName) (v : Word)
  | rd (r : RegName)
  | mwr (a : Nat) (bs : List Byte)
  | mrd (a n : Nat)
  | cmd (i : Instr)
  | wait
  | run (i : Instr)
  | src (a n : Word)
  | dst (a n : Word)
  | ack
  | expect (r : RegName) (v : Word)
  deriving DecidableEq, Repr

end Sys2Proof
end

