-- ==== Sys2Proof/Machine/State.lean ====
section
/-! DEFINITION. The state of the ADEF core as plain data (spec/10_state.md R40), what stops a run, and the state
right after reset (R79). -/

namespace Sys2Proof.Machine

/-- Why a run stops: the host actions the core does not define (60_exceptions.md R308). Safe: the model makes no
claim past them, as the rule says. The errors of commands are no faults; they are completions. -/
inductive Fault
  /-- Raised by a host register access that is not one aligned 32-bit access below 0x100 (10_state.md R43).
  Safe. -/
  | regAccessUndefined
  /-- Raised by a host MEM access, at any address, while STATUS.BUSY = 1 (20_memory.md R114). Safe. -/
  | memAccessWhileBusy
  /-- Raised by a host MEM access at or above MEM_SIZE (60_exceptions.md R308). Safe. -/
  | memAddressOutOfRange
  deriving DecidableEq, Repr

/-- Why the model has no meaning for an instruction. -/
inductive Refusal
  /-- Raised by an arm of `exec` for an instruction that has no meaning yet; no arm does. Safe. -/
  | notModelled (mnemonic : String)
  deriving DecidableEq, Repr

/-- The errors a command can raise (60_exceptions.md R300). -/
inductive CmdError
  | invalidInput
  | modelMismatch
  | precisionExhaustion
  | illegalCommand
  | modelNotBuilt
  | range
  | dstOverflow
  | limitExceeded
  deriving DecidableEq, Repr

/-- STATUS without its reserved bits, which read 0 and store nothing (10_state.md R47, R71). -/
structure Status where
  busy    : Bool
  done    : Bool
  err     : Bool
  errcode : BitVec 4
  ovr     : Bool
  deriving DecidableEq, Repr

/-- MODEL without its reserved bits (10_state.md R57). -/
structure ModelReg where
  treeValid  : Bool
  codesValid : Bool
  partValid  : Bool
  distinct   : BitVec 9
  deriving DecidableEq, Repr

/-- One entry of the tree arena (10_state.md R73). -/
inductive Node
  | unused
  | leaf (sym : Byte) (weight : Word)
  | internal (left right : BitVec 9) (weight : Word)
  deriving DecidableEq, Repr

/-- NODE with NODE_COUNT and ROOT (10_state.md R73). -/
structure Arena where
  node  : Table Node 511
  count : BitVec 10
  root  : BitVec 9
  deriving DecidableEq, Repr

/-- The operand record P (40_control.md R151). -/
structure Operands where
  srcAddr   : Word
  srcLen    : Word
  dstAddr   : Word
  dstCap    : Word
  bitLen    : Word
  symCount  : Word
  sizeLimit : Word
  deriving DecidableEq, Repr

/-- What a port answered to a read of the host. -/
inductive Reply
  | reg (off : Nat) (v : Word)
  | mem (addr : Nat) (v : Byte)
  deriving DecidableEq, Repr

/-- The state of the ADEF core (10_state.md R40) and, last, the model's own fields. ID, VERSION, the windows and
IRQ hold nothing of their own (R44, R45, R60 to R70, R78). -/
structure State where
  /-- CMD, all 32 bits (R46) -/
  cmd       : Word
  /-- STATUS (R47) -/
  status    : Status
  /-- IRQ_EN.DONE_IE (R48) -/
  irqEn     : Bool
  /-- SIZE_LIMIT (R49) -/
  sizeLimit : Word
  /-- SRC_ADDR (R50) -/
  srcAddr   : Word
  /-- SRC_LEN (R51) -/
  srcLen    : Word
  /-- DST_ADDR (R52) -/
  dstAddr   : Word
  /-- DST_CAP (R53) -/
  dstCap    : Word
  /-- BIT_LEN (R54) -/
  bitLen    : Word
  /-- SYM_COUNT (R55) -/
  symCount  : Word
  /-- OUT_LEN (R56) -/
  outLen    : Word
  /-- MODEL (R57) -/
  model     : ModelReg
  /-- TOTAL (R58) -/
  total     : Word
  /-- FREQ_IDX.INDEX (R59) -/
  freqIdx   : BitVec 8
  /-- NODE_IDX.INDEX (R61) -/
  nodeIdx   : BitVec 9
  /-- CODE_IDX.INDEX (R65) -/
  codeIdx   : BitVec 8
  /-- PART_IDX.INDEX (R68) -/
  partIdx   : BitVec 8
  /-- FREQ (R72) -/
  freq      : Table Word 256
  /-- NODE, NODE_COUNT, ROOT (R73) -/
  arena     : Arena
  /-- CODE (R74) -/
  code      : Table Bits 256
  /-- CUM (R75) -/
  cum       : Table Word 257
  /-- P, present while a command runs (R77, 40_control.md R151) -/
  latched   : Option Operands
  /-- MEM: the bytes written since reset (20_memory.md R100, R101) -/
  mem       : List Host.Cell
  /-- MEM_SIZE - 1, a parameter no step changes (00_scope.md R11; notes/assumptions/3.md) -/
  memTop    : Word
  /-- the model's own: how many resets came before (notes/assumptions/4.md) -/
  resets    : Nat
  /-- the model's own: how many free values have been drawn (notes/assumptions/5.md, 6.md) -/
  draws     : Nat
  /-- the model's own: what HOST will still do, oldest first (notes/assumptions/1.md) -/
  host      : List HostOp
  /-- the model's own: how many host steps come before the running command's completion
  (40_control.md R154; notes/assumptions/2.md) -/
  hostTurns : Nat
  /-- the model's own: the same for the commands to come (notes/assumptions/2.md) -/
  latencies : List Nat
  /-- the model's own: what the ports answered, newest first (notes/assumptions/13.md) -/
  replies   : List Reply
  deriving DecidableEq, Repr

/-- NONE, the node index that names no node (00_scope.md R21). -/
def noneIndex : BitVec 9 := 0x1FF

/-- The empty arena (10_state.md R79). -/
def Arena.empty : Arena := ⟨Table.replicate 511 .unused, 0, noneIndex⟩

/-- The state right after reset (10_state.md R79) of a core with MEM_SIZE = `memTop` + 1. The model's own fields
are 0 and empty. -/
def State.resetAt (memTop : Word) : State where
  cmd := 0
  status := ⟨false, false, false, 0, false⟩
  irqEn := false
  sizeLimit := 0
  srcAddr := 0
  srcLen := 0
  dstAddr := 0
  dstCap := 0
  bitLen := 0
  symCount := 0
  outLen := 0
  model := ⟨false, false, false, 0⟩
  total := 0
  freqIdx := 0
  nodeIdx := 0
  codeIdx := 0
  partIdx := 0
  freq := Table.replicate 256 0
  arena := Arena.empty
  code := Table.replicate 256 []
  cum := Table.replicate 257 0
  latched := none
  mem := []
  memTop := memTop
  resets := 0
  draws := 0
  host := []
  hostTurns := 0
  latencies := []
  replies := []

/-- The state right after reset (10_state.md R79), with MEM_SIZE of notes/assumptions/3.md. -/
def State.reset : State := State.resetAt Config.memTopAtReset

end Sys2Proof.Machine
end

