-- ==== Sys2Proof/Machine/Memory.lean ====
section
/-! DEFINITION. The buffer memory MEM (spec/20_memory.md): one canonical list of the bytes written since reset,
and the byte accesses from which every other access is built. -/

namespace Sys2Proof.Machine

/-- What an address that is not listed holds: no value of its own, since nothing has written it since reset.
A read of it draws a free value (20_memory.md R101; notes/assumptions/4.md). -/
def Memory.unlisted : Option Byte := none

/-- The byte listed for an address. -/
def Memory.lookup (m : List Host.Cell) (a : Nat) : Option Byte :=
  match m with
  | [] => Memory.unlisted
  | (b, v) :: rest => if b = a then some v else Memory.lookup rest a

/-- The memory with one byte written, in canonical form again. -/
def Memory.write (m : List Host.Cell) (a : Nat) (v : Byte) : List Host.Cell :=
  match m with
  | [] => [(a, v)]
  | (b, w) :: rest =>
    if a < b then (a, v) :: (b, w) :: rest
    else if a = b then (a, v) :: rest
    else (b, w) :: Memory.write rest a v

/-- The memory with a byte string written from an address on: MemWrite of 00_scope.md R17. -/
def Memory.writeBytes (m : List Host.Cell) (a : Nat) (bs : List Byte) : List Host.Cell :=
  match bs with
  | [] => m
  | b :: rest => Memory.writeBytes (Memory.write m a b) (a + 1) rest

/-- Every address of the list is above `a`, and they rise strictly. -/
def Memory.risesFrom (a : Nat) (m : List Host.Cell) : Bool :=
  match m with
  | [] => true
  | (b, _) :: rest => decide (a < b) && Memory.risesFrom b rest

/-- The addresses rise strictly. -/
def Memory.rises (m : List Host.Cell) : Bool :=
  match m with
  | [] => true
  | (b, _) :: rest => Memory.risesFrom b rest

/-- The canonical form: addresses strictly rising, and no entry equal to what an unlisted address holds. -/
def Memory.wf (m : List Host.Cell) : Bool := Memory.rises m && m.all (fun c => some c.2 != Memory.unlisted)

/-- MEM_SIZE (00_scope.md R11). -/
def State.memSize (s : State) : Nat := s.memTop.toNat + 1

/-- The byte MEM[a] (20_memory.md R100, R101). -/
def State.readByte (s : State) (a : Nat) : Byte :=
  match Memory.lookup s.mem a with
  | some v => v
  | none => Config.powerOnByte s.resets a

/-- MemRead(addr, n) of 00_scope.md R17. -/
def State.readBytes (s : State) (addr n : Nat) : List Byte := (List.range n).map (fun i => s.readByte (addr + i))

/-- MEM[a] <- v. -/
def State.writeByte (s : State) (a : Nat) (v : Byte) : State := { s with mem := Memory.write s.mem a v }

/-- MemWrite(addr, |bs|, bs) of 00_scope.md R17. -/
def State.writeBytes (s : State) (addr : Nat) (bs : List Byte) : State :=
  { s with mem := Memory.writeBytes s.mem addr bs }

end Sys2Proof.Machine
end

