-- ==== Sys2Proof/Machine/Bits.lean ====
section
/-! DEFINITION. Bit order and byte order (spec/20_memory.md R103 to R107, spec/41_frequency.md R183). -/

namespace Sys2Proof.Machine

/-- ceil8(n): the number of bytes that hold n bits (00_scope.md R14). -/
def ceil8 (n : Nat) : Nat := (n + 7) / 8

/-- The bit of a byte that is bit i of a bitstream: position 7 - (i mod 8) (20_memory.md R104). -/
def bitOfByte (b : Byte) (i : Nat) : Bool := b.getLsbD (7 - i % 8)

/-- BitAt(a, i) of 20_memory.md R105. -/
def State.bitAt (s : State) (a i : Nat) : Bool := bitOfByte (s.readByte (a + i / 8)) i

/-- UnpackBits(a, n) of 20_memory.md R107. -/
def State.unpackBits (s : State) (a n : Nat) : Bits := (List.range n).map (fun i => s.bitAt a i)

/-- A bitstring read past its end gives zeros: BitAtN of 20_memory.md R105, over the bits UnpackBits read. -/
def bitOrZero (bits : Bits) (i : Nat) : Bool := bits.getD i false

/-- A bit as the number 0 or 1. -/
def bitVal (b : Bool) : Nat := if b then 1 else 0

/-- Byte j of PackBits(bits): the sum of bits[i] * 2^(7 - (i mod 8)) over 8j <= i < min(8j + 8, n)
(20_memory.md R106). -/
def packedByte (bits : Bits) (j : Nat) : Byte :=
  BitVec.ofNat 8 (((List.range 8).map (fun k => bitVal (bitOrZero bits (8 * j + k)) * 2 ^ (7 - k))).sum)

/-- PackBits(bits) of 20_memory.md R106. -/
def packBits (bits : Bits) : List Byte := (List.range (ceil8 bits.length)).map (packedByte bits)

/-- LE32bytes(v) of 41_frequency.md R183. -/
def le32Bytes (v : Word) : List Byte :=
  [v.extractLsb' 0 8, v.extractLsb' 8 8, v.extractLsb' 16 8, v.extractLsb' 24 8]

/-- LE32 of 41_frequency.md R183, of the four bytes from an address on. -/
def State.readLE32 (s : State) (a : Nat) : Nat :=
  (s.readByte a).toNat + 256 * (s.readByte (a + 1)).toNat + 2 ^ 16 * (s.readByte (a + 2)).toNat
    + 2 ^ 24 * (s.readByte (a + 3)).toNat

end Sys2Proof.Machine
end

