-- ==== Sys2Proof/Machine/Flags.lean ====
section
/-! DEFINITION. Every flag computation: the error codes (spec/60_exceptions.md R300), STATUS at issue, at completion
and under a host write (spec/10_state.md R47, spec/40_control.md R150, R154), the valid bits (R158), the interrupt
output (R78), and the words in which STATUS, MODEL, TREE_INFO, NODE_INFO and CODE_Wn are read. -/

namespace Sys2Proof.Machine

/-- The code of an error in STATUS.ERRCODE (60_exceptions.md R300). -/
def errorCode : CmdError → BitVec 4
  | .invalidInput => 1
  | .modelMismatch => 2
  | .precisionExhaustion => 3
  | .illegalCommand => 4
  | .modelNotBuilt => 5
  | .range => 6
  | .dstOverflow => 7
  | .limitExceeded => 8

/-- code(outcome.error) of 40_control.md R154; 0 when none was raised. -/
def outcomeCode : Option CmdError → BitVec 4
  | none => 0
  | some e => errorCode e

/-- STATUS at issue (40_control.md R150): OVR is not changed. -/
def Status.issued (st : Status) : Status := { busy := true, done := false, err := false, errcode := 0, ovr := st.ovr }

/-- STATUS at completion (40_control.md R154): OVR is not changed. -/
def Status.completed (st : Status) (e : Option CmdError) : Status :=
  { busy := false, done := true, err := e.isSome, errcode := outcomeCode e, ovr := st.ovr }

/-- STATUS after a host write of a word to it: bits 1 and 16 are W1C, every other bit is ignored
(10_state.md R47). -/
def Status.cleared (st : Status) (w : Word) : Status :=
  { st with done := st.done && !w.getLsbD 1, ovr := st.ovr && !w.getLsbD 16 }

/-- STATUS after a dropped host write (40_control.md R152). -/
def Status.overrun (st : Status) : Status := { st with ovr := true }

/-- STATUS as a word (10_state.md R47). -/
def Status.toWord (st : Status) : Word :=
  0#15 ++ BitVec.ofBool st.ovr ++ 0#8 ++ st.errcode ++ 0#1 ++ BitVec.ofBool st.err ++ BitVec.ofBool st.done
    ++ BitVec.ofBool st.busy

/-- MODEL as a word (10_state.md R57). -/
def ModelReg.toWord (m : ModelReg) : Word :=
  0#15 ++ m.distinct ++ 0#5 ++ BitVec.ofBool m.partValid ++ BitVec.ofBool m.codesValid ++ BitVec.ofBool m.treeValid

/-- MODEL after FREQ changed: every valid bit 0 (40_control.md R158, 41_frequency.md R181). -/
def ModelReg.staled (_ : ModelReg) (k : Nat) : ModelReg :=
  { treeValid := false, codesValid := false, partValid := false, distinct := BitVec.ofNat 9 k }

/-- MODEL after BUILD_TREE (40_control.md R158). -/
def ModelReg.treeBuilt (m : ModelReg) : ModelReg := { m with treeValid := true, codesValid := false }

/-- MODEL after BUILD_CODES (40_control.md R158). -/
def ModelReg.codesBuilt (m : ModelReg) : ModelReg := { m with codesValid := true }

/-- MODEL after BUILD_PART (40_control.md R158). -/
def ModelReg.partBuilt (m : ModelReg) : ModelReg := { m with partValid := true }

/-- TREE_INFO as a word (10_state.md R64). -/
def Arena.infoWord (t : Arena) : Word := 0#7 ++ t.root ++ 0#6 ++ t.count

/-- NODE_INFO of an entry (10_state.md R62). -/
def Node.infoWord : Node → Word
  | .unused => 0
  | .leaf sym _ => 1#1 ++ 1#1 ++ 0#4 ++ sym ++ noneIndex ++ noneIndex
  | .internal l r _ => 0#1 ++ 1#1 ++ 0#4 ++ 0#8 ++ r ++ l

/-- The weight of an entry, NODE_WEIGHT (10_state.md R63). -/
def Node.weightWord : Node → Word
  | .unused => 0
  | .leaf _ w => w
  | .internal _ _ w => w

/-- CODE_Wn of a code: bit j is c[32n + j], and 0 past the code's end (10_state.md R67). -/
def codeWord (c : Bits) (n : Nat) : Word :=
  BitVec.ofNat 32 (((List.range 32).map (fun j => if c.getD (32 * n + j) false then 2 ^ j else 0)).sum)

/-- The interrupt output (10_state.md R78). -/
def State.irq (s : State) : Bool := s.status.done && s.irqEn

end Sys2Proof.Machine
end

