-- ==== Sys2Proof/Machine/Operands.lean ====
section
/-! DEFINITION. The operands of commands: the latched record (spec/40_control.md R151), the operand table (R157) and
the checks of steps 2 to 4 (R155). And the operand forms of the register port: the register map and what a read of
each register returns (spec/10_state.md R43 to R71). -/

namespace Sys2Proof.Machine

/-- The operand registers as they stand: latch() of 40_control.md R151. -/
def State.liveOperands (s : State) : Operands :=
  ⟨s.srcAddr, s.srcLen, s.dstAddr, s.dstCap, s.bitLen, s.symCount, s.sizeLimit⟩

/-- The record P a command reads (40_control.md R151). Where no command runs there is no P and the registers
stand for it (notes/assumptions/8.md). -/
def State.operands (s : State) : Operands :=
  match s.latched with
  | some p => p
  | none => s.liveOperands

/-- The valid bit a command needs (40_control.md R157). -/
inductive ValidBit
  | tree
  | codes
  | part
  deriving DecidableEq, Repr

/-- The value of a valid bit (10_state.md R57). -/
def ModelReg.valid (m : ModelReg) : ValidBit → Bool
  | .tree => m.treeValid
  | .codes => m.codesValid
  | .part => m.partValid

/-- What the checks need to know of a command: the columns "src", "dst" and "needs" of 40_control.md R157, and
whether SYM_COUNT is guarded too (R155 step 2). -/
structure Uses where
  readsSrc    : Bool
  writesDst   : Bool
  guardsCount : Bool
  needs       : Option ValidBit
  deriving DecidableEq, Repr

/-- The operand table of 40_control.md R157, one row per command. -/
def usesOf : Instr → Uses
  | .nop => ⟨false, false, false, none⟩
  | .clearModel => ⟨false, false, false, none⟩
  | .scan => ⟨true, false, false, none⟩
  | .loadFreq => ⟨true, false, false, none⟩
  | .saveFreq => ⟨false, true, false, none⟩
  | .buildTree => ⟨false, false, false, none⟩
  | .buildCodes => ⟨false, false, false, some .tree⟩
  | .buildPart => ⟨false, false, false, none⟩
  | .huffEnc => ⟨true, true, false, some .codes⟩
  | .huffDec => ⟨true, true, false, some .tree⟩
  | .arithEnc => ⟨true, true, false, some .part⟩
  | .arithDec => ⟨true, true, true, some .part⟩
  | .pack => ⟨true, true, false, none⟩
  | .unpack => ⟨true, true, false, none⟩

/-- Step 2 of 40_control.md R155 fails: a guarded length exceeds SIZE_LIMIT, which is not 0. -/
def limitExceeded (u : Uses) (p : Operands) : Bool :=
  p.sizeLimit != 0
    && ((u.readsSrc && decide (p.sizeLimit.toNat < p.srcLen.toNat))
      || (u.guardsCount && decide (p.sizeLimit.toNat < p.symCount.toNat)))

/-- The source range runs past MEM_SIZE, in unbounded arithmetic (40_control.md R155 step 3). -/
def srcOutside (p : Operands) (memSize : Nat) : Bool := decide (memSize < p.srcAddr.toNat + p.srcLen.toNat)

/-- The destination range runs past MEM_SIZE (40_control.md R155 step 3). -/
def dstOutside (p : Operands) (memSize : Nat) : Bool := decide (memSize < p.dstAddr.toNat + p.dstCap.toNat)

/-- Two ranges that are not empty overlap (40_control.md R155 step 3). -/
def rangesOverlap (p : Operands) : Bool :=
  decide (0 < p.srcLen.toNat) && (decide (0 < p.dstCap.toNat)
    && (decide (p.srcAddr.toNat < p.dstAddr.toNat + p.dstCap.toNat)
      && decide (p.dstAddr.toNat < p.srcAddr.toNat + p.srcLen.toNat)))

/-- Step 3 of 40_control.md R155 fails. -/
def rangeFails (u : Uses) (p : Operands) (memSize : Nat) : Bool :=
  (u.readsSrc && srcOutside p memSize)
    || ((u.writesDst && dstOutside p memSize)
      || (u.readsSrc && (u.writesDst && rangesOverlap p)))

/-- Step 4 of 40_control.md R155 fails: the valid bit the command needs is 0. -/
def notBuilt (u : Uses) (m : ModelReg) : Bool :=
  match u.needs with
  | none => false
  | some v => !m.valid v

/-- Steps 2 to 4 of 40_control.md R155: the first that raises an error, if one does. -/
def earlyError (u : Uses) (p : Operands) (s : State) : Option CmdError :=
  if limitExceeded u p then some .limitExceeded
  else if rangeFails u p s.memSize then some .range
  else if notBuilt u s.model then some .modelNotBuilt
  else none

/-- Step 5 of HUFF_DEC, ARITH_DEC and UNPACK fails: the source range is shorter than ceil8(BIT_LEN)
(42_huffman.md R208, 43_arith.md R237, 44_bitpack.md R262). -/
def sourceTooShort (p : Operands) : Bool := decide (p.srcLen.toNat < ceil8 p.bitLen.toNat)

/-- The body: the bytes of the source range (00_scope.md R21). -/
def State.source (s : State) (p : Operands) : List Byte := s.readBytes p.srcAddr.toNat p.srcLen.toNat

/-- The BIT_LEN bits of the packed bitstream at SRC_ADDR (20_memory.md R107). -/
def State.sourceBits (s : State) (p : Operands) : Bits := s.unpackBits p.srcAddr.toNat p.bitLen.toNat

/-- The offset column of the register map (10_state.md R43). -/
def registerOffset : RegName → Nat
  | .id => 0x000
  | .version => 0x004
  | .cmd => 0x008
  | .status => 0x00C
  | .irqEn => 0x010
  | .sizeLimit => 0x014
  | .srcAddr => 0x018
  | .srcLen => 0x01C
  | .dstAddr => 0x020
  | .dstCap => 0x024
  | .bitLen => 0x028
  | .symCount => 0x02C
  | .outLen => 0x030
  | .model => 0x034
  | .total => 0x038
  | .freqIdx => 0x040
  | .freqData => 0x044
  | .nodeIdx => 0x048
  | .nodeInfo => 0x04C
  | .nodeWeight => 0x050
  | .treeInfo => 0x054
  | .codeIdx => 0x058
  | .codeLen => 0x05C
  | .codeW n => 0x060 + 4 * n.val
  | .partIdx => 0x080
  | .partLow => 0x084
  | .partHigh => 0x088

/-- The register at an offset of the register map; none for a reserved slot (10_state.md R43, R71). -/
def registerAt (off : Nat) : Option RegName :=
  match off with
  | 0x000 => some .id
  | 0x004 => some .version
  | 0x008 => some .cmd
  | 0x00C => some .status
  | 0x010 => some .irqEn
  | 0x014 => some .sizeLimit
  | 0x018 => some .srcAddr
  | 0x01C => some .srcLen
  | 0x020 => some .dstAddr
  | 0x024 => some .dstCap
  | 0x028 => some .bitLen
  | 0x02C => some .symCount
  | 0x030 => some .outLen
  | 0x034 => some .model
  | 0x038 => some .total
  | 0x040 => some .freqIdx
  | 0x044 => some .freqData
  | 0x048 => some .nodeIdx
  | 0x04C => some .nodeInfo
  | 0x050 => some .nodeWeight
  | 0x054 => some .treeInfo
  | 0x058 => some .codeIdx
  | 0x05C => some .codeLen
  | 0x060 => some (.codeW 0)
  | 0x064 => some (.codeW 1)
  | 0x068 => some (.codeW 2)
  | 0x06C => some (.codeW 3)
  | 0x070 => some (.codeW 4)
  | 0x074 => some (.codeW 5)
  | 0x078 => some (.codeW 6)
  | 0x07C => some (.codeW 7)
  | 0x080 => some .partIdx
  | 0x084 => some .partLow
  | 0x088 => some .partHigh
  | _ => none

/-- FREQ[b] as a number (10_state.md R72). -/
def State.freqAt (s : State) (b : Byte) : Nat := (s.freq.get b.toNat 0).toNat

/-- NODE[i]; an index that names no entry reads as Unused (10_state.md R62, R63, R73). -/
def Arena.nodeAt (t : Arena) (i : Nat) : Node := t.node.get i .unused

/-- CODE[b] (10_state.md R74). -/
def State.codeAt (s : State) (b : Byte) : Bits := s.code.get b.toNat []

/-- CUM[i] as a number (10_state.md R75). -/
def cumAt (c : Table Word 257) (i : Nat) : Nat := (c.get i 0).toNat

/-- What a read of a register returns while BUSY = 0 (10_state.md R44 to R70). -/
def State.regValue (s : State) : RegName → Word
  | .id => 0x41444546
  | .version => 0x00000007
  | .cmd => s.cmd
  | .status => s.status.toWord
  | .irqEn => (BitVec.ofBool s.irqEn).setWidth 32
  | .sizeLimit => s.sizeLimit
  | .srcAddr => s.srcAddr
  | .srcLen => s.srcLen
  | .dstAddr => s.dstAddr
  | .dstCap => s.dstCap
  | .bitLen => s.bitLen
  | .symCount => s.symCount
  | .outLen => s.outLen
  | .model => s.model.toWord
  | .total => s.total
  | .freqIdx => s.freqIdx.setWidth 32
  | .freqData => s.freq.get s.freqIdx.toNat 0
  | .nodeIdx => s.nodeIdx.setWidth 32
  | .nodeInfo => (s.arena.nodeAt s.nodeIdx.toNat).infoWord
  | .nodeWeight => (s.arena.nodeAt s.nodeIdx.toNat).weightWord
  | .treeInfo => s.arena.infoWord
  | .codeIdx => s.codeIdx.setWidth 32
  | .codeLen => (BitVec.ofNat 8 (s.codeAt s.codeIdx).length).setWidth 32
  | .codeW n => codeWord (s.codeAt s.codeIdx) n.val
  | .partIdx => s.partIdx.setWidth 32
  | .partLow => s.cum.get s.partIdx.toNat 0
  | .partHigh => s.cum.get (s.partIdx.toNat + 1) 0

/-- The registers whose reads return any value while BUSY = 1 (40_control.md R153). -/
def freeWhileBusy : RegName → Bool
  | .bitLen | .symCount | .outLen | .model | .total | .freqData | .nodeInfo | .nodeWeight | .treeInfo
  | .codeLen | .codeW _ | .partLow | .partHigh => true
  | .id | .version | .cmd | .status | .irqEn | .sizeLimit | .srcAddr | .srcLen | .dstAddr | .dstCap
  | .freqIdx | .nodeIdx | .codeIdx | .partIdx => false

end Sys2Proof.Machine
end

