-- ==== Sys2Proof/Machine/Ops.lean ====
section
/-! DEFINITION. The operations every command shares (spec/40_control.md): issue (R150), completion (R154), what an
error leaves (R156), the order of the checks (R155) and the commit of an output (R157); and reset
(spec/70_reset_and_hazards.md R340). The core has no trap: the completion of a failing command IS its exception
(spec/60_exceptions.md R306), and the host's acknowledgement is the return from it (R307). -/

namespace Sys2Proof.Machine

/-- Issue of a word (40_control.md R150, R151): CMD stores it, STATUS shows the running command, P is latched. How
many host steps come before its completion is taken from the plan (notes/assumptions/2.md). -/
def State.issue (s : State) (w : Word) : State :=
  { s with
    cmd := w
    status := s.status.issued
    latched := some s.liveOperands
    hostTurns := s.latencies.headD 0
    latencies := s.latencies.tail }

/-- The completion of a command with the given outcome (40_control.md R154): STATUS, and P is gone (R77). -/
def State.complete (s : State) (e : Option CmdError) : State :=
  { s with status := s.status.completed e, latched := none, hostTurns := 0 }

/-- The free bytes that `n` bytes of the destination range become (40_control.md R156). -/
def State.drawnBytes (s : State) (n : Nat) : List Byte := (List.range n).map (fun i => Config.freeByte (s.draws + i))

/-- Every byte of the destination range becomes any value (40_control.md R156). -/
def State.scrambleDst (s : State) (p : Operands) : State :=
  { s with
    mem := Memory.writeBytes s.mem p.dstAddr.toNat (s.drawnBytes p.dstCap.toNat)
    draws := s.draws + p.dstCap.toNat }

/-- THE shared operation of an error at steps 1 to 5: STATUS only (40_control.md R156, 60_exceptions.md R306). -/
def State.raiseEarly (s : State) (e : CmdError) : State := s.complete (some e)

/-- THE shared operation of an error at step 6 or 7: STATUS and the destination bytes only (40_control.md R156,
60_exceptions.md R306). -/
def State.raiseLate (s : State) (e : CmdError) : State := (s.scrambleDst s.operands).complete (some e)

/-- The return (60_exceptions.md R307): the host's write to STATUS (10_state.md R47). -/
def State.acknowledge (s : State) (w : Word) : State := { s with status := s.status.cleared w }

/-- How the steps 5 to 8 of a command end (40_control.md R155): an error of step 5, an error of step 6 or 7, or the
state with the command's effects committed. -/
inductive CmdResult
  | early (e : CmdError)
  | late (e : CmdError)
  | commit (t : State)

/-- The completion step's commit of a result (40_control.md R154, R156). -/
def State.conclude (s : State) : CmdResult → State
  | .early e => s.raiseEarly e
  | .late e => s.raiseLate e
  | .commit t => t.complete none

/-- Exec of 40_control.md R155 for a command with the given row of the operand table and the given steps 5 to 8. -/
def runCommand (u : Uses) (body : Operands → State → CmdResult) (s : State) :
    Host.Outcome State Fault Refusal :=
  match earlyError u s.operands s with
  | some e => .next (s.conclude (.early e))
  | none => .next (s.conclude (body s.operands s))

/-- Steps 7 and 8 for a byte string written to the destination range with OUT_LEN (40_control.md R155, R157): it
fits, or DST_OVERFLOW. -/
def storeOutput (p : Operands) (out : List Byte) (s : State) : CmdResult :=
  if p.dstCap.toNat < out.length then .late .dstOverflow
  else .commit { s.writeBytes p.dstAddr.toNat out with outLen := BitVec.ofNat 32 out.length }

/-- Steps 7 and 8 of HUFF_ENC, ARITH_ENC and PACK (42_huffman.md R206, 43_arith.md R235, 44_bitpack.md R260): the
bits packed, with BIT_LEN and OUT_LEN. -/
def storePacked (p : Operands) (bits : Bits) (s : State) : CmdResult :=
  if 0xFFFFFFFF < bits.length then .late .dstOverflow
  else storeOutput p (packBits bits) { s with bitLen := BitVec.ofNat 32 bits.length }

/-- Reset (70_reset_and_hazards.md R340): every register and table to its reset value, the running command
abandoned, MEM drawn anew. MEM_SIZE and what stands outside the core stay (notes/assumptions/14.md). -/
def State.resetInput (s : State) : State :=
  { State.resetAt s.memTop with
    resets := s.resets + 1
    draws := s.draws
    host := s.host
    latencies := s.latencies
    replies := s.replies }

end Sys2Proof.Machine
end

