-- ==== Sys2Proof/Machine/Arith.lean ====
section
/-! DEFINITION. The arithmetic coder: BUILD_PART, ARITH_ENC and ARITH_DEC (spec/43_arith.md). The working values are
natural numbers; that they stay in 32 bits is a law of the coder (R236), not a truncation. -/

namespace Sys2Proof.Machine

/-- TOP, HALF, QUARTER, THREEQ and MAX_TOTAL (43_arith.md R231). -/
def coderTop : Nat := 0xFFFFFFFF

/-- HALF (43_arith.md R231). -/
def coderHalf : Nat := 0x80000000

/-- QUARTER (43_arith.md R231). -/
def coderQuarter : Nat := 0x40000000

/-- THREEQ (43_arith.md R231). -/
def coderThreeQ : Nat := 0xC0000000

/-- MAX_TOTAL (43_arith.md R231). -/
def maxTotal : Nat := 0x3FFFFFFF

/-- The running sums C[0], C[1], ... of a list of counts (43_arith.md R230). -/
def runningSums (acc : Nat) (counts : List Nat) : List Nat :=
  match counts with
  | [] => [acc]
  | c :: rest => acc :: runningSums (acc + c) rest

/-- C of 43_arith.md R230: the running sums of FREQ in ascending symbol order. -/
def partitionSums (freq : Table Word 256) : List Nat := runningSums 0 (freq.entries.map BitVec.toNat)

/-- C[256]: the total the partition is of (43_arith.md R230). -/
def partitionTotal (freq : Table Word 256) : Nat := (partitionSums freq).getD 256 0

/-- The table CUM BUILD_PART makes of FREQ (43_arith.md R230). -/
def buildCum (freq : Table Word 256) : Table Word 257 :=
  Table.tabulate 257 (fun i => BitVec.ofNat 32 ((partitionSums freq).getD i 0))

/-- BUILD_PART, steps 5 to 8 (43_arith.md R230). -/
def buildPartBody (_ : Operands) (s : State) : CmdResult :=
  if maxTotal < partitionTotal s.freq then .early .precisionExhaustion
  else .commit { s with cum := buildCum s.freq, model := s.model.partBuilt }

/-- BUILD_PART (43_arith.md R230). -/
def execBuildPart (s : State) : Host.Outcome State Fault Refusal := runCommand (usesOf .buildPart) buildPartBody s

/-- Narrow (43_arith.md R232): both results use the old low. -/
def narrow (low high cl ch total : Nat) : Nat × Nat :=
  (low + (high - low + 1) * cl / total, low + (high - low + 1) * ch / total - 1)

/-- The encoder's working values (43_arith.md R233). -/
structure Enc where
  low     : Nat
  high    : Nat
  pending : Nat
  bits    : Bits
  deriving DecidableEq, Repr

/-- Emit(b) (43_arith.md R233). -/
def Enc.emit (e : Enc) (b : Bool) : Enc :=
  { e with bits := e.bits ++ (b :: List.replicate e.pending (!b)), pending := 0 }

/-- The last line of the encoder's loop: low and high doubled (43_arith.md R233). -/
def Enc.double (e : Enc) : Enc := { e with low := 2 * e.low, high := 2 * e.high + 1 }

/-- low and high moved down (43_arith.md R233). -/
def Enc.lower (e : Enc) (d : Nat) : Enc := { e with low := e.low - d, high := e.high - d }

/-- The encoder's renormalisation loop (43_arith.md R233). `fuel` passes at most are made; 32 are enough, since each
doubles high - low + 1, which is at most 2^32 (R236; notes/assumptions/9.md). -/
def Enc.renorm (fuel : Nat) (e : Enc) : Enc :=
  match fuel with
  | 0 => e
  | fuel + 1 =>
    if e.high < coderHalf then Enc.renorm fuel (e.emit false).double
    else if coderHalf ≤ e.low then Enc.renorm fuel ((e.emit true).lower coderHalf).double
    else if coderQuarter ≤ e.low ∧ e.high < coderThreeQ then
      Enc.renorm fuel ({ e with pending := e.pending + 1 }.lower coderQuarter).double
    else e

/-- The passes a renormalisation can need: P = 32 (43_arith.md R231, R236). -/
def renormPasses : Nat := 32

/-- One symbol encoded (43_arith.md R235). -/
def Enc.symbol (e : Enc) (cum : Table Word 257) (b : Byte) : Enc :=
  Enc.renorm renormPasses
    { e with
      low := (narrow e.low e.high (cumAt cum b.toNat) (cumAt cum (b.toNat + 1)) (cumAt cum 256)).1
      high := (narrow e.low e.high (cumAt cum b.toNat) (cumAt cum (b.toNat + 1)) (cumAt cum 256)).2 }

/-- Termination (43_arith.md R234). -/
def Enc.finish (e : Enc) : Enc :=
  { e with pending := e.pending + 1 }.emit (decide (coderQuarter ≤ e.low))

/-- The working values before the first symbol (43_arith.md R235). -/
def Enc.start : Enc := ⟨0, coderTop, 0, []⟩

/-- The symbol's interval is empty (43_arith.md R235). -/
def emptyInterval (cum : Table Word 257) (b : Byte) : Bool := cumAt cum (b.toNat + 1) == cumAt cum b.toNat

/-- The encoder's loop over a body; none is MODEL_MISMATCH (43_arith.md R235). -/
def arithEncodeFrom (cum : Table Word 257) (e : Enc) (body : List Byte) : Option Enc :=
  match body with
  | [] => some e
  | b :: rest => if emptyInterval cum b then none else arithEncodeFrom cum (e.symbol cum b) rest

/-- Step 6 of ARITH_ENC: the bits of a body; an empty body has none (43_arith.md R234, R235). -/
def arithEncode (cum : Table Word 257) (body : List Byte) : Option Bits :=
  if body.length = 0 then some []
  else (arithEncodeFrom cum Enc.start body).map (fun e => e.finish.bits)

/-- ARITH_ENC, steps 5 to 8 (43_arith.md R235). -/
def arithEncBody (p : Operands) (s : State) : CmdResult :=
  match arithEncode s.cum (s.source p) with
  | none => .late .modelMismatch
  | some bits => storePacked p bits { s with symCount := p.srcLen }

/-- ARITH_ENC (43_arith.md R235). -/
def execArithEnc (s : State) : Host.Outcome State Fault Refusal := runCommand (usesOf .arithEnc) arithEncBody s

/-- The decoder's working values (43_arith.md R237). -/
structure Dec where
  low   : Nat
  high  : Nat
  value : Nat
  pos   : Nat
  deriving DecidableEq, Repr

/-- The last lines of the decoder's loop: low and high doubled, the next bit taken into value (43_arith.md R238);
a bit past BIT_LEN is 0 (20_memory.md R105). -/
def Dec.double (d : Dec) (bits : Bits) : Dec :=
  ⟨2 * d.low, 2 * d.high + 1, 2 * d.value + bitVal (bitOrZero bits d.pos), d.pos + 1⟩

/-- low, high and value moved down (43_arith.md R238). -/
def Dec.lower (d : Dec) (x : Nat) : Dec := { d with low := d.low - x, high := d.high - x, value := d.value - x }

/-- The decoder's renormalisation loop: the cases of the encoder's, in the same order (43_arith.md R238). -/
def Dec.renorm (fuel : Nat) (bits : Bits) (d : Dec) : Dec :=
  match fuel with
  | 0 => d
  | fuel + 1 =>
    if d.high < coderHalf then Dec.renorm fuel bits (d.double bits)
    else if coderHalf ≤ d.low then Dec.renorm fuel bits ((d.lower coderHalf).double bits)
    else if coderQuarter ≤ d.low ∧ d.high < coderThreeQ then
      Dec.renorm fuel bits ((d.lower coderQuarter).double bits)
    else d

/-- The first 32 bits as a number, the first bit the most significant (43_arith.md R237). -/
def firstValue (bits : Bits) : Nat := (List.range 32).foldl (fun v j => 2 * v + bitVal (bitOrZero bits j)) 0

/-- The working values before the first symbol (43_arith.md R237). -/
def Dec.start (bits : Bits) : Dec := ⟨0, coderTop, firstValue bits, 32⟩

/-- target of 43_arith.md R237. -/
def Dec.target (d : Dec) (total : Nat) : Nat := ((d.value - d.low + 1) * total - 1) / (d.high - d.low + 1)

/-- The symbol whose interval holds a target (43_arith.md R237). -/
def symbolAt (cum : Table Word 257) (target : Nat) : Option Byte :=
  ((List.range 256).find? (fun i => decide (cumAt cum i ≤ target) && decide (target < cumAt cum (i + 1)))).map
    (BitVec.ofNat 8)

/-- The working values after a symbol (43_arith.md R237). -/
def Dec.symbol (d : Dec) (cum : Table Word 257) (bits : Bits) (b : Byte) : Dec :=
  Dec.renorm renormPasses bits
    { d with
      low := (narrow d.low d.high (cumAt cum b.toNat) (cumAt cum (b.toNat + 1)) (cumAt cum 256)).1
      high := (narrow d.low d.high (cumAt cum b.toNat) (cumAt cum (b.toNat + 1)) (cumAt cum 256)).2 }

/-- The decoder's loop for `n` symbols (43_arith.md R237). The symbol always exists on a built partition (R239);
where a state no run reaches has none, this is MODEL_MISMATCH (notes/assumptions/10.md). -/
def arithDecodeFrom (cum : Table Word 257) (bits : Bits) (n : Nat) (d : Dec) : Option (List Byte) :=
  match n with
  | 0 => some []
  | n + 1 =>
    match symbolAt cum (d.target (cumAt cum 256)) with
    | none => none
    | some b => (arithDecodeFrom cum bits n (d.symbol cum bits b)).map (fun out => b :: out)

/-- Step 6 of ARITH_DEC; none is MODEL_MISMATCH (43_arith.md R237). -/
def arithDecode (cum : Table Word 257) (bits : Bits) (n : Nat) : Option (List Byte) :=
  if n = 0 then some []
  else if cumAt cum 256 = 0 then none
  else arithDecodeFrom cum bits n (Dec.start bits)

/-- ARITH_DEC, steps 5 to 8 (43_arith.md R237). -/
def arithDecBody (p : Operands) (s : State) : CmdResult :=
  if sourceTooShort p then .early .invalidInput
  else
    match arithDecode s.cum (s.sourceBits p) p.symCount.toNat with
    | none => .late .modelMismatch
    | some out => storeOutput p out s

/-- ARITH_DEC (43_arith.md R237). -/
def execArithDec (s : State) : Host.Outcome State Fault Refusal := runCommand (usesOf .arithDec) arithDecBody s

end Sys2Proof.Machine
end

