-- ==== Sys2Proof/Machine/BitPack.lean ====
section
/-! DEFINITION. The bit packer and unpacker PACK and UNPACK (spec/44_bitpack.md). -/

namespace Sys2Proof.Machine

/-- A byte that is a bit: 0x00 or 0x01 (44_bitpack.md R260). -/
def isBitByte (b : Byte) : Bool := decide (b.toNat ≤ 1)

/-- The bits of a sequence held one per byte (44_bitpack.md R260). -/
def bitsOfBytes (bs : List Byte) : Bits := bs.map (fun b => b != 0)

/-- The sequence of bytes 0x00 and 0x01 that holds bits one per byte (44_bitpack.md R262). -/
def bytesOfBits (bits : Bits) : List Byte := bits.map (fun b => if b then 1 else 0)

/-- PACK, steps 5 to 8 (44_bitpack.md R260). -/
def packBody (p : Operands) (s : State) : CmdResult :=
  if (s.source p).all isBitByte then storePacked p (bitsOfBytes (s.source p)) s
  else .early .invalidInput

/-- PACK (44_bitpack.md R260). -/
def execPack (s : State) : Host.Outcome State Fault Refusal := runCommand (usesOf .pack) packBody s

/-- UNPACK, steps 5 to 8 (44_bitpack.md R262). -/
def unpackBody (p : Operands) (s : State) : CmdResult :=
  if sourceTooShort p then .early .invalidInput
  else storeOutput p (bytesOfBits (s.sourceBits p)) s

/-- UNPACK (44_bitpack.md R262). -/
def execUnpack (s : State) : Host.Outcome State Fault Refusal := runCommand (usesOf .unpack) unpackBody s

end Sys2Proof.Machine
end

