-- ==== Sys2Proof/Machine/Control.lean ====
section
/-! DEFINITION. The control commands NOP and CLEAR_MODEL (spec/40_control.md R160, R161). -/

namespace Sys2Proof.Machine

/-- NOP (40_control.md R160): no effect but its completion. -/
def execNop (s : State) : Host.Outcome State Fault Refusal :=
  runCommand (usesOf .nop) (fun _ t => .commit t) s

/-- Every table and MODEL, TOTAL as after reset (40_control.md R161). -/
def State.clearModel (s : State) : State :=
  { s with
    freq := Table.replicate 256 0
    arena := Arena.empty
    code := Table.replicate 256 []
    cum := Table.replicate 257 0
    total := 0
    model := s.model.staled 0 }

/-- CLEAR_MODEL (40_control.md R161). -/
def execClearModel (s : State) : Host.Outcome State Fault Refusal :=
  runCommand (usesOf .clearModel) (fun _ t => .commit t.clearModel) s

end Sys2Proof.Machine
end

