-- ==== Sys2Proof/Machine/Frequency.lean ====
section
/-! DEFINITION. The frequency model commands SCAN, LOAD_FREQ and SAVE_FREQ (spec/41_frequency.md). -/

namespace Sys2Proof.Machine

/-- F[b] <- F[b] + 1 (41_frequency.md R180). -/
def bumpCount (f : Table Nat 256) (b : Byte) : Table Nat 256 := f.set b.toNat (f.get b.toNat 0 + 1)

/-- The counts of a body, in one pass (41_frequency.md R180). -/
def scanCounts (body : List Byte) : Table Nat 256 := body.foldl bumpCount (Table.replicate 256 0)

/-- The sum of a table of counts (41_frequency.md R181). -/
def countSum (f : Table Nat 256) : Nat := f.entries.sum

/-- The number of symbols with a count above 0 (41_frequency.md R181). -/
def countDistinct (f : Table Nat 256) : Nat := f.entries.countP (fun c => decide (0 < c))

/-- CommitFreq(F) (41_frequency.md R181). -/
def State.commitFreq (s : State) (f : Table Nat 256) : State :=
  { s with
    freq := f.map (BitVec.ofNat 32)
    total := BitVec.ofNat 32 (countSum f)
    model := s.model.staled (countDistinct f) }

/-- SCAN, steps 5 to 8 (41_frequency.md R180). -/
def scanBody (p : Operands) (s : State) : CmdResult := .commit (s.commitFreq (scanCounts (s.source p)))

/-- SCAN (41_frequency.md R180). -/
def execScan (s : State) : Host.Outcome State Fault Refusal := runCommand (usesOf .scan) scanBody s

/-- The size of a frequency table image (00_scope.md R10, 41_frequency.md R183). -/
def imageSize : Nat := 1024

/-- The counts of the image at an address: F[s] is the little-endian word at offset 4s (41_frequency.md R183). -/
def State.imageCounts (s : State) (a : Nat) : Table Nat 256 := Table.tabulate 256 (fun i => s.readLE32 (a + 4 * i))

/-- LOAD_FREQ, steps 5 to 8 (41_frequency.md R182). -/
def loadFreqBody (p : Operands) (s : State) : CmdResult :=
  if p.srcLen.toNat < imageSize then .early .invalidInput
  else if 0xFFFFFFFF < countSum (s.imageCounts p.srcAddr.toNat) then .early .invalidInput
  else .commit (s.commitFreq (s.imageCounts p.srcAddr.toNat))

/-- LOAD_FREQ (41_frequency.md R182). -/
def execLoadFreq (s : State) : Host.Outcome State Fault Refusal := runCommand (usesOf .loadFreq) loadFreqBody s

/-- The image of FREQ (41_frequency.md R183). -/
def freqImage (f : Table Word 256) : List Byte := f.entries.flatMap le32Bytes

/-- SAVE_FREQ, steps 5 to 8 (41_frequency.md R183). -/
def saveFreqBody (p : Operands) (s : State) : CmdResult := storeOutput p (freqImage s.freq) s

/-- SAVE_FREQ (41_frequency.md R183). -/
def execSaveFreq (s : State) : Host.Outcome State Fault Refusal := runCommand (usesOf .saveFreq) saveFreqBody s

end Sys2Proof.Machine
end

