-- ==== Sys2Proof/Machine/Huffman.lean ====
section
/-! DEFINITION. The Huffman commands BUILD_TREE, BUILD_CODES, HUFF_ENC and HUFF_DEC (spec/42_huffman.md). -/

namespace Sys2Proof.Machine

/-- The symbols in ascending order (42_huffman.md R200). -/
def allSymbols : List Byte := (List.range 256).map (BitVec.ofNat 8)

/-- The present symbols with their counts, in ascending symbol order (42_huffman.md R200). -/
def presentSymbols (freq : Table Word 256) : List (Byte × Word) :=
  (allSymbols.map (fun b => (b, freq.get b.toNat 0))).filter (fun x => x.2 != 0)

/-- An active node as the pair the tie-break compares: (weight, index) (42_huffman.md R201). -/
abbrev Active := Nat × Nat

/-- The order of extraction: least weight, and among equal weights least index (42_huffman.md R201). -/
def extractedBefore (x y : Active) : Bool := decide (x.1 < y.1) || (decide (x.1 = y.1) && decide (x.2 ≤ y.2))

/-- The node extracted next and the nodes left active (42_huffman.md R200, R201). -/
def extractLeast (active : List Active) : Option (Active × List Active) :=
  match active with
  | [] => none
  | x :: xs =>
    match extractLeast xs with
    | none => some (x, [])
    | some (m, rest) => if extractedBefore x m then some (x, xs) else some (m, x :: rest)

/-- The merging loop of 42_huffman.md R200, over the nodes made so far and the active ones: the first node extracted
becomes the left child, the second the right (R201). `fuel` merges at most are made; the number of leaves is enough
(notes/assumptions/9.md). -/
def mergeLoop (fuel : Nat) (nodes : List Node) (active : List Active) : List Node :=
  match fuel with
  | 0 => nodes
  | fuel + 1 =>
    match extractLeast active with
    | none => nodes
    | some (a, active1) =>
      match extractLeast active1 with
      | none => nodes
      | some (b, active2) =>
        mergeLoop fuel
          (nodes ++ [.internal (BitVec.ofNat 9 a.2) (BitVec.ofNat 9 b.2) (BitVec.ofNat 32 (a.1 + b.1))])
          (active2 ++ [(a.1 + b.1, nodes.length)])

/-- The leaves NODE[0] to NODE[k-1] (42_huffman.md R200). -/
def leafNodes (present : List (Byte × Word)) : List Node := present.map (fun x => .leaf x.1 x.2)

/-- The leaves as active nodes (42_huffman.md R200). -/
def leafActives (present : List (Byte × Word)) : List Active :=
  (present.map (fun x => x.2.toNat)).zip (List.range present.length)

/-- The nodes of the tree of FREQ, in arena order (42_huffman.md R200). -/
def treeNodes (freq : Table Word 256) : List Node :=
  mergeLoop (presentSymbols freq).length (leafNodes (presentSymbols freq)) (leafActives (presentSymbols freq))

/-- An arena of the given nodes: the rest Unused, ROOT the last node, or NONE (42_huffman.md R200, R202). -/
def arenaOf (nodes : List Node) : Arena where
  node := Table.tabulate 511 (fun i => nodes.getD i .unused)
  count := BitVec.ofNat 10 nodes.length
  root := if nodes.length = 0 then noneIndex else BitVec.ofNat 9 (nodes.length - 1)

/-- The arena BUILD_TREE makes of FREQ (42_huffman.md R200). -/
def buildArena (freq : Table Word 256) : Arena := arenaOf (treeNodes freq)

/-- BUILD_TREE, steps 5 to 8 (42_huffman.md R200). -/
def buildTreeBody (_ : Operands) (s : State) : CmdResult :=
  .commit { s with arena := buildArena s.freq, model := s.model.treeBuilt }

/-- BUILD_TREE (42_huffman.md R200). -/
def execBuildTree (s : State) : Host.Outcome State Fault Refusal := runCommand (usesOf .buildTree) buildTreeBody s

/-- Walk(i, path) of 42_huffman.md R204: the leaves met, each with the path to it. `fuel` nodes deep at most; 256 is
enough, since no leaf is deeper than 255 (R203; notes/assumptions/9.md). -/
def walkTree (t : Arena) (fuel : Nat) (i : Nat) (path : Bits) : List (Byte × Bits) :=
  match fuel with
  | 0 => []
  | fuel + 1 =>
    match t.nodeAt i with
    | .leaf sym _ => [(sym, path)]
    | .internal l r _ => walkTree t fuel l.toNat (path ++ [false]) ++ walkTree t fuel r.toNat (path ++ [true])
    | .unused => []

/-- The codes BUILD_CODES assigns, in the order it assigns them (42_huffman.md R204): the code "0" for the only
symbol of a single-leaf tree. -/
def assignedCodes (t : Arena) : List (Byte × Bits) :=
  if t.count = 0 then []
  else if t.count = 1 then
    match t.nodeAt 0 with
    | .leaf sym _ => [(sym, [false])]
    | .internal _ _ _ => []
    | .unused => []
  else walkTree t 256 t.root.toNat []

/-- The code table BUILD_CODES makes of a tree (42_huffman.md R204). -/
def buildCodeTable (t : Arena) : Table Bits 256 :=
  (assignedCodes t).foldl (fun c x => c.set x.1.toNat x.2) (Table.replicate 256 [])

/-- BUILD_CODES, steps 5 to 8 (42_huffman.md R204). -/
def buildCodesBody (_ : Operands) (s : State) : CmdResult :=
  .commit { s with code := buildCodeTable s.arena, model := s.model.codesBuilt }

/-- BUILD_CODES (42_huffman.md R204). -/
def execBuildCodes (s : State) : Host.Outcome State Fault Refusal := runCommand (usesOf .buildCodes) buildCodesBody s

/-- The bits of a body, or none at the first byte that has no code (42_huffman.md R206). -/
def huffEncode (code : Table Bits 256) (body : List Byte) : Option Bits :=
  match body with
  | [] => some []
  | b :: rest =>
    if (code.get b.toNat []).length = 0 then none
    else (huffEncode code rest).map (fun bits => code.get b.toNat [] ++ bits)

/-- HUFF_ENC, steps 5 to 8 (42_huffman.md R206). -/
def huffEncBody (p : Operands) (s : State) : CmdResult :=
  match huffEncode s.code (s.source p) with
  | none => .late .modelMismatch
  | some bits => storePacked p bits { s with symCount := p.srcLen }

/-- HUFF_ENC (42_huffman.md R206). -/
def execHuffEnc (s : State) : Host.Outcome State Fault Refusal := runCommand (usesOf .huffEnc) huffEncBody s

/-- The child a bit leads to (42_huffman.md R208). A node that is not internal has none; no step of a built tree
asks for it (notes/assumptions/10.md). -/
def Arena.child (t : Arena) (i : Nat) (b : Bool) : Nat :=
  match t.nodeAt i with
  | .internal l r _ => if b then r.toNat else l.toNat
  | .leaf _ _ => noneIndex.toNat
  | .unused => noneIndex.toNat

/-- The decoder's loop over the bits of a tree of two or more leaves (42_huffman.md R208); none is
MODEL_MISMATCH. -/
def huffDecodeWalk (t : Arena) (cur : Nat) (bits : Bits) : Option (List Byte) :=
  match bits with
  | [] => if cur = t.root.toNat then some [] else none
  | b :: rest =>
    match t.nodeAt (t.child cur b) with
    | .leaf sym _ => (huffDecodeWalk t t.root.toNat rest).map (fun out => sym :: out)
    | .internal _ _ _ => huffDecodeWalk t (t.child cur b) rest
    | .unused => huffDecodeWalk t (t.child cur b) rest

/-- The decoder's loop for a single-leaf tree (42_huffman.md R208); none is MODEL_MISMATCH. -/
def huffDecodeSingle (sym : Byte) (bits : Bits) : Option (List Byte) :=
  match bits with
  | [] => some []
  | b :: rest => if b then none else (huffDecodeSingle sym rest).map (fun out => sym :: out)

/-- The symbol of an entry; an entry that is no leaf has none and reads as 0, as SYMBOL of NODE_INFO does
(10_state.md R62; notes/assumptions/10.md). -/
def Node.symbol : Node → Byte
  | .leaf sym _ => sym
  | .internal _ _ _ => 0
  | .unused => 0

/-- Step 6 of HUFF_DEC (42_huffman.md R208); none is MODEL_MISMATCH. -/
def huffDecode (t : Arena) (bits : Bits) : Option (List Byte) :=
  if t.count = 0 then (if bits.length = 0 then some [] else none)
  else if t.count = 1 then huffDecodeSingle (t.nodeAt 0).symbol bits
  else huffDecodeWalk t t.root.toNat bits

/-- HUFF_DEC, steps 5 to 8 (42_huffman.md R208). -/
def huffDecBody (p : Operands) (s : State) : CmdResult :=
  if sourceTooShort p then .early .invalidInput
  else
    match huffDecode s.arena (s.sourceBits p) with
    | none => .late .modelMismatch
    | some out => storeOutput p out { s with symCount := BitVec.ofNat 32 out.length }

/-- HUFF_DEC (42_huffman.md R208). -/
def execHuffDec (s : State) : Host.Outcome State Fault Refusal := runCommand (usesOf .huffDec) huffDecBody s

end Sys2Proof.Machine
end

