-- ==== Sys2Proof/Machine/Dispatch.lean ====
section
/-! DEFINITION. One arm per command: the completion step of a command that decodes (spec/40_control.md R154). -/

namespace Sys2Proof.Machine

def exec (i : Instr) (s : State) : Host.Outcome State Fault Refusal :=
  match i with
  | .nop => Sys2Proof.Machine.execNop s
  | .clearModel => Sys2Proof.Machine.execClearModel s
  | .scan => Sys2Proof.Machine.execScan s
  | .loadFreq => Sys2Proof.Machine.execLoadFreq s
  | .saveFreq => Sys2Proof.Machine.execSaveFreq s
  | .buildTree => Sys2Proof.Machine.execBuildTree s
  | .buildCodes => Sys2Proof.Machine.execBuildCodes s
  | .buildPart => Sys2Proof.Machine.execBuildPart s
  | .huffEnc => Sys2Proof.Machine.execHuffEnc s
  | .huffDec => Sys2Proof.Machine.execHuffDec s
  | .arithEnc => Sys2Proof.Machine.execArithEnc s
  | .arithDec => Sys2Proof.Machine.execArithDec s
  | .pack => Sys2Proof.Machine.execPack s
  | .unpack => Sys2Proof.Machine.execUnpack s

end Sys2Proof.Machine
end

