-- ==== Sys2Proof/WellFormed.lean ====
section
/-! DEFINITION. Which terms are well formed: command words (spec/30_encoding.md R130, R133, R134), commands,
and host accesses (spec/10_state.md R43, spec/60_exceptions.md R308). -/

namespace Sys2Proof

/-- RESERVED must be 0 (30_encoding.md R130). -/
def CmdWord.reservedIsZero (c : CmdWord) : Bool := c.reserved == 0

/-- OPCODE names a row of the opcode map (30_encoding.md R133: 0x00 to 0x0D). -/
def CmdWord.opcodeIsMapped (c : CmdWord) : Bool := decide (c.opcode ≤ 0x0D#8)

/-- A well-formed command word: one that is not Illegal (30_encoding.md R134). -/
def CmdWord.wellFormed (c : CmdWord) : Bool := c.reservedIsZero && c.opcodeIsMapped

/-- A command has no field that could be ill formed (30_encoding.md R130: "There is no other field"). -/
def Instr.wellFormed : Instr → Bool
  | .nop | .clearModel | .scan | .loadFreq | .saveFreq | .buildTree | .buildCodes | .buildPart
  | .huffEnc | .huffDec | .arithEnc | .arithDec | .pack | .unpack => true

/-- The access R43 defines: 32 bits wide. -/
def regWidthOk (width : Nat) : Bool := width == 32

/-- The access R43 defines: at a multiple of 4. -/
def regAligned (off : Nat) : Bool := off % 4 == 0

/-- The access R43 defines: below 0x100. -/
def regInBlock (off : Nat) : Bool := decide (off < 0x100)

/-- A register access the core defines (10_state.md R43). -/
def regAccessOk (width off : Nat) : Bool := regWidthOk width && (regAligned off && regInBlock off)

/-- A host operation the core defines, as far as its form goes, on a core with `memSize` bytes of MEM: a MEM
access while BUSY = 1 is a matter of the state (20_memory.md R114), not of the form. -/
def HostOp.wellFormed (memSize : Nat) : HostOp → Bool
  | .regWrite width off _ => regAccessOk width off
  | .regRead width off => regAccessOk width off
  | .memWrite addr _ => decide (addr < memSize)
  | .memRead addr => decide (addr < memSize)
  | .wait => true
  | .reset => true

end Sys2Proof
end

