-- ==== Sys2Proof/Decode.lean ====
section
/-! DEFINITION. Decoding a command word (spec/30_encoding.md R134), and the encoder written from the same
opcode map (R133). A command is one 32-bit word written to CMD; it stands in no memory, so it has no byte
order (R131, spec/10_state.md R41). -/

namespace Sys2Proof

/-- Why a word is Illegal (30_encoding.md R134, R135). -/
inductive DecodeError
  /-- bits [31:8] are not 0 -/
  | reservedNotZero
  /-- OPCODE is 0x0E to 0xFF -/
  | opcodeUnmapped
  deriving DecidableEq, Repr

/-- The two fields of a command word (30_encoding.md R130). -/
def splitWord (w : Word) : CmdWord := ⟨w.extractLsb' 0 8, w.extractLsb' 8 24⟩

/-- The word with the given fields (30_encoding.md R130). -/
def joinWord (c : CmdWord) : Word := c.reserved ++ c.opcode

/-- OPCODE to command, the opcode map of 30_encoding.md R133. -/
def instrOfOpcode (op : BitVec 8) : Option Instr :=
  match op.toNat with
  | 0x00 => some .nop
  | 0x01 => some .clearModel
  | 0x02 => some .scan
  | 0x03 => some .loadFreq
  | 0x04 => some .saveFreq
  | 0x05 => some .buildTree
  | 0x06 => some .buildCodes
  | 0x07 => some .buildPart
  | 0x08 => some .huffEnc
  | 0x09 => some .huffDec
  | 0x0A => some .arithEnc
  | 0x0B => some .arithDec
  | 0x0C => some .pack
  | 0x0D => some .unpack
  | _ => none

/-- Decode of 30_encoding.md R134: total on all 2^32 words, rejecting by name. -/
def decode (w : Word) : Except DecodeError Instr :=
  if (splitWord w).reservedIsZero then
    match instrOfOpcode (splitWord w).opcode with
    | some i => .ok i
    | none => .error .opcodeUnmapped
  else .error .reservedNotZero

/-- The OPCODE column of the opcode map (30_encoding.md R133). -/
def opcodeOf : Instr → BitVec 8
  | .nop => 0x00
  | .clearModel => 0x01
  | .scan => 0x02
  | .loadFreq => 0x03
  | .saveFreq => 0x04
  | .buildTree => 0x05
  | .buildCodes => 0x06
  | .buildPart => 0x07
  | .huffEnc => 0x08
  | .huffDec => 0x09
  | .arithEnc => 0x0A
  | .arithDec => 0x0B
  | .pack => 0x0C
  | .unpack => 0x0D

/-- The command word of a command: its OPCODE, with RESERVED = 0 (30_encoding.md R130, R133). -/
def encode (i : Instr) : Word := joinWord ⟨opcodeOf i, 0⟩

/-- The command word whose low `nbits` bits are those of `w`, every other bit 0. -/
def tableWord (nbits w : Nat) : Word := BitVec.ofNat 32 (w % 2 ^ nbits)

/-- What the decoder reads from a row of spec/opcode_table.json laid out as one command word; none where it
refuses the word, or where the row is longer than the one word a command has (30_encoding.md R131). -/
def decodeTableWord (nbits w : Nat) : Option Instr :=
  if nbits ≤ 32 then
    match decode (tableWord nbits w) with
    | .ok i => some i
    | .error _ => none
  else none

end Sys2Proof
end

