-- ==== Sys2Proof/Machine/Host.lean ====
section
/-! DEFINITION. The HOST agent: what a register write does (spec/10_state.md R43 to R71, spec/40_control.md R150, R152),
what a read returns (R153), the memory port (spec/20_memory.md R114), the reset input (spec/70_reset_and_hazards.md R340),
and the expansion of host statements into port operations (spec/30_encoding.md R136, R137). -/

namespace Sys2Proof.Machine

/-- A write of a word to a register while BUSY = 0 (10_state.md R44 to R70): a write to a read-only register is
ignored. -/
def State.writeIdle (s : State) (r : RegName) (v : Word) : State :=
  match r with
  | .cmd => s.issue v
  | .status => s.acknowledge v
  | .irqEn => { s with irqEn := v.getLsbD 0 }
  | .sizeLimit => { s with sizeLimit := v }
  | .srcAddr => { s with srcAddr := v }
  | .srcLen => { s with srcLen := v }
  | .dstAddr => { s with dstAddr := v }
  | .dstCap => { s with dstCap := v }
  | .bitLen => { s with bitLen := v }
  | .symCount => { s with symCount := v }
  | .freqIdx => { s with freqIdx := v.setWidth 8 }
  | .nodeIdx => { s with nodeIdx := v.setWidth 9 }
  | .codeIdx => { s with codeIdx := v.setWidth 8 }
  | .partIdx => { s with partIdx := v.setWidth 8 }
  | .id | .version | .outLen | .model | .total | .freqData | .nodeInfo | .nodeWeight | .treeInfo
  | .codeLen | .codeW _ | .partLow | .partHigh => s

/-- A host write that is dropped (40_control.md R152). -/
def State.dropWrite (s : State) : State := { s with status := s.status.overrun }

/-- A write of a word to the register at an offset the core defines; none is a reserved slot (10_state.md R71,
40_control.md R152). -/
def State.writeSlot (s : State) (r : Option RegName) (v : Word) : State :=
  if s.status.busy then
    match r with
    | some .status => s.acknowledge v
    | some .irqEn => { s with irqEn := v.getLsbD 0 }
    | _ => s.dropWrite
  else
    match r with
    | some r => s.writeIdle r v
    | none => s

/-- What a read at an offset the core defines returns (10_state.md R44 to R71; while BUSY = 1, 40_control.md R153). -/
def State.readSlot (s : State) (r : Option RegName) : Word :=
  match r with
  | none => 0
  | some r => if s.status.busy && freeWhileBusy r then Config.freeWord s.draws else s.regValue r

/-- How many free values such a read draws. -/
def State.readDraws (s : State) (r : Option RegName) : Nat :=
  match r with
  | none => 0
  | some r => if s.status.busy && freeWhileBusy r then 1 else 0

/-- The state after a register read: it changes nothing of the core (20_memory.md R110); the answer is recorded and
a drawn value is counted. -/
def State.afterRegRead (s : State) (off : Nat) : State :=
  { s with
    replies := .reg off (s.readSlot (registerAt off)) :: s.replies
    draws := s.draws + s.readDraws (registerAt off) }

/-- The fault of a MEM access of the host, if it has one (20_memory.md R114, 60_exceptions.md R308;
notes/assumptions/12.md). -/
def State.memFault (s : State) (a : Nat) : Option Fault :=
  if s.status.busy then some .memAccessWhileBusy
  else if s.memSize ≤ a then some .memAddressOutOfRange
  else none

/-- A register write at the port (10_state.md R43). -/
def hostRegWrite (width off : Nat) (v : Word) (s : State) : Host.Outcome State Fault Refusal :=
  if regAccessOk width off then .next (s.writeSlot (registerAt off) v) else .fault .regAccessUndefined

/-- A register read at the port (10_state.md R43). -/
def hostRegRead (width off : Nat) (s : State) : Host.Outcome State Fault Refusal :=
  if regAccessOk width off then .next (s.afterRegRead off) else .fault .regAccessUndefined

/-- A byte write on the memory port (20_memory.md R100, R114). -/
def hostMemWrite (a : Nat) (v : Byte) (s : State) : Host.Outcome State Fault Refusal :=
  match s.memFault a with
  | some f => .fault f
  | none => .next (s.writeByte a v)

/-- A byte read on the memory port (20_memory.md R100, R114). -/
def hostMemRead (a : Nat) (s : State) : Host.Outcome State Fault Refusal :=
  match s.memFault a with
  | some f => .fault f
  | none => .next { s with replies := .mem a (s.readByte a) :: s.replies }

/-- One pass of the loop `wait` (30_encoding.md R137): STATUS is read, and the loop goes on while BUSY was 1. -/
def hostWait (s : State) : Host.Outcome State Fault Refusal :=
  .next { s.afterRegRead (registerOffset .status) with host := if s.status.busy then .wait :: s.host else s.host }

/-- The reset input (70_reset_and_hazards.md R340). -/
def hostReset (s : State) : Host.Outcome State Fault Refusal := .next s.resetInput

/-- What one host operation does to the core. -/
def hostOp (op : HostOp) (s : State) : Host.Outcome State Fault Refusal :=
  match op with
  | .regWrite width off v => hostRegWrite width off v s
  | .regRead width off => hostRegRead width off s
  | .memWrite a v => hostMemWrite a v s
  | .memRead a => hostMemRead a s
  | .wait => hostWait s
  | .reset => hostReset s

/-- HOST's step: its next operation, with one of the turns it has before a completion used up. -/
def hostStep (op : HostOp) (rest : List HostOp) (s : State) : Host.Outcome State Fault Refusal :=
  hostOp op { s with host := rest, hostTurns := s.hostTurns - 1 }

/-- A host write of `n` bytes to MEM is the sequence of its bytes in little-endian order (20_memory.md R103). -/
def wideMemWrite (a n v : Nat) : List HostOp :=
  (List.range n).map (fun i => .memWrite (a + i) (BitVec.ofNat 8 (v / 256 ^ i)))

/-- A host read of `n` bytes of MEM is the sequence of its bytes (20_memory.md R103). -/
def wideMemRead (a n : Nat) : List HostOp := (List.range n).map (fun i => .memRead (a + i))

/-- `wr NAME, v` (30_encoding.md R136). -/
def writeRegOp (r : RegName) (v : Word) : HostOp := .regWrite 32 (registerOffset r) v

/-- `rd NAME` (30_encoding.md R136). -/
def readRegOp (r : RegName) : HostOp := .regRead 32 (registerOffset r)

/-- `cmd MNEMONIC` (30_encoding.md R136). -/
def issueOp (i : Instr) : HostOp := writeRegOp .cmd (encode i)

/-- The port operations of a host statement (30_encoding.md R136, R137); `expect` is a claim, so only its read is an
operation. -/
def expandStmt : HostStmt → List HostOp
  | .wr r v => [writeRegOp r v]
  | .rd r => [readRegOp r]
  | .mwr a bs => (List.range bs.length).map (fun i => .memWrite (a + i) (bs.getD i 0))
  | .mrd a n => wideMemRead a n
  | .cmd i => [issueOp i]
  | .wait => [.wait]
  | .run i => [issueOp i, .wait]
  | .src a n => [writeRegOp .srcAddr a, writeRegOp .srcLen n]
  | .dst a n => [writeRegOp .dstAddr a, writeRegOp .dstCap n]
  | .ack => [writeRegOp .status 0x00010002]
  | .expect r _ => [readRegOp r]

/-- The port operations of a host program (30_encoding.md R136). -/
def expandProgram (prog : List HostStmt) : List HostOp := prog.flatMap expandStmt

/-- ENGINE moves next: a command runs, and the host steps planned before its completion are taken, or HOST has
nothing left to do (40_control.md R154; notes/assumptions/2.md). -/
def State.engineMoves (s : State) : Bool := s.status.busy && (s.hostTurns == 0 || s.host.isEmpty)

/-- The completion of a word that decodes to no command (30_encoding.md R135, 40_control.md R155 step 1). -/
def completeIllegal (s : State) : Host.Outcome State Fault Refusal := .next (s.raiseEarly .illegalCommand)

/-- The state in which a word has been issued and ENGINE moves next: the issue of 40_control.md R150 with no host
step planned before the completion. -/
def State.issueNow (s : State) (w : Word) : State :=
  { s.issue w with hostTurns := 0, latencies := s.latencies }

end Sys2Proof.Machine
end

