-- ==== Sys2Proof/Machine/Step.lean ====
section
/-! DEFINITION. One step of the core (spec/20_memory.md R113: one total order of host accesses and command
completions). -/

namespace Sys2Proof.Machine

/-- ENGINE's only step: the completion of the command in CMD (40_control.md R154). -/
def engineStep (s : State) : Host.Outcome State Fault Refusal :=
  match decode s.cmd with
  | .ok i => exec i s
  | .error _ => completeIllegal s

/-- One step: ENGINE completes the running command, or HOST performs its next operation. With no command running and
nothing for HOST to do, nothing happens (60_exceptions.md R316). -/
def step (s : State) : Host.Outcome State Fault Refusal :=
  if s.engineMoves then engineStep s
  else
    match s.host with
    | [] => .next s
    | op :: rest => hostStep op rest s

/-- `s` with the given command word issued, so that the very next step runs it (notes/assumptions/7.md). The core
fetches no instructions (10_state.md R41): a command is the word written to CMD. -/
def State.withFetchWord (s : State) (nbits w : Nat) : State := s.issueNow (tableWord nbits w)

end Sys2Proof.Machine
end

