-- ==== Sys2Proof/Safety.lean ====
section
/-! DEFINITION. What counts as a safe run, in the terms claims use: the host operations the core defines
(spec/60_exceptions.md R308), and the invariant of the machine's states (spec/10_state.md R47, R72 to R77). -/

namespace Sys2Proof.Machine

/-- The operation is an access on the memory port. -/
def isMemAccess : HostOp → Bool
  | .memWrite _ _ => true
  | .memRead _ => true
  | .regWrite _ _ _ => false
  | .regRead _ _ => false
  | .wait => false
  | .reset => false

/-- A host operation the core defines in a state: its form is one R43 and R308 define, and no MEM access while
BUSY = 1 (20_memory.md R114). -/
def hostOpDefined (op : HostOp) (s : State) : Bool :=
  op.wellFormed s.memSize && !(isMemAccess op && s.status.busy)

/-- The run does not stop at this state. -/
def StepSafe (s : State) : Prop := ∃ t, step s = .next t

/-- The invariant of the core: what holds in every state a run from reset meets, and what every step keeps. -/
structure Inv (s : State) : Prop where
  /-- MEM's list is canonical. -/
  memCanonical : Memory.wf s.mem = true
  /-- Every listed byte is a byte of MEM (20_memory.md R100). -/
  memInside : ∀ c ∈ s.mem, c.1 < s.memSize
  /-- ERR = 1 if and only if ERRCODE is not 0 (10_state.md R47). -/
  errIffCode : s.status.err = true ↔ s.status.errcode ≠ 0
  /-- ERRCODE 9 to 15 is never produced (60_exceptions.md R300). -/
  errcodeKnown : s.status.errcode.toNat ≤ 8
  /-- P is there exactly while a command runs (10_state.md R77). -/
  latchedIffBusy : s.latched.isSome = s.status.busy
  /-- P equals the operand registers for the whole command (40_control.md R151). -/
  latchedCurrent : ∀ p, s.latched = some p → p = s.liveOperands
  /-- A running command shows neither completion nor error (40_control.md R150). -/
  busyClean : s.status.busy = true → s.status.done = false ∧ s.status.errcode = 0
  /-- TOTAL is the sum of FREQ (10_state.md R76). -/
  totalIsSum : s.total.toNat = (s.freq.entries.map BitVec.toNat).sum
  /-- DISTINCT is the number of present symbols (10_state.md R76). -/
  distinctIsCount : s.model.distinct.toNat = s.freq.entries.countP (fun c => decide (c ≠ 0))
  /-- TREE_VALID: the arena was built from the current FREQ (40_control.md R158). -/
  treeBuilt : s.model.treeValid = true → s.arena = buildArena s.freq
  /-- CODES_VALID: the tree is valid and CODE was built from it (40_control.md R158). -/
  codesBuilt : s.model.codesValid = true → s.model.treeValid = true ∧ s.code = buildCodeTable s.arena
  /-- PART_VALID: CUM was built from the current FREQ, whose total the coder accepts (40_control.md R158,
  10_state.md R76). -/
  partBuilt : s.model.partValid = true → s.cum = buildCum s.freq ∧ partitionTotal s.freq ≤ maxTotal
  /-- Entries at or past NODE_COUNT are Unused (10_state.md R73). -/
  arenaUnused : ∀ i, s.arena.count.toNat ≤ i → s.arena.nodeAt i = .unused
  /-- NODE_COUNT is 0 to 511 (10_state.md R73). -/
  arenaCount : s.arena.count.toNat ≤ 511
  /-- A code has at most 255 bits (10_state.md R74). -/
  codeShort : ∀ b, (s.codeAt b).length ≤ 255
  /-- CUM[0] = 0 (10_state.md R75). -/
  cumStart : cumAt s.cum 0 = 0
  /-- CUM[s] <= CUM[s + 1] (10_state.md R75). -/
  cumRises : ∀ i, i < 256 → cumAt s.cum i ≤ cumAt s.cum (i + 1)

end Sys2Proof.Machine
end

