-- ==== Sys2Proof/Certificates/Slice0/Obligations.lean ====
section
/-! DEFINITION. The statements for the provers. The terms under Sys2Proof.Claims are the statements' own: they are
written from the rules of the spec, not from the model's definitions, wherever the model computes the same thing. -/

namespace Sys2Proof.Claims

open Sys2Proof Sys2Proof.Machine

/-- A command that completed without error: STATUS.BUSY 0, DONE 1, ERR 0, ERRCODE 0, OVR as before, P gone
(40_control.md R154). -/
def done (s : State) : State :=
  { s with status := ⟨false, true, false, 0, s.status.ovr⟩, latched := none, hostTurns := 0 }

/-- A command that completed with an error of the given code and changed nothing else (40_control.md R156). -/
def failed (code : BitVec 4) (s : State) : State :=
  { s with status := ⟨false, true, true, code, s.status.ovr⟩, latched := none, hostTurns := 0 }

/-- "src" of the operand table (40_control.md R157). -/
def readsSource (i : Instr) : Bool :=
  [Instr.scan, .loadFreq, .huffEnc, .huffDec, .arithEnc, .arithDec, .pack, .unpack].contains i

/-- "dst" of the operand table (40_control.md R157). -/
def writesDest (i : Instr) : Bool :=
  [Instr.saveFreq, .huffEnc, .huffDec, .arithEnc, .arithDec, .pack, .unpack].contains i

/-- The valid bit a command needs is 0 (40_control.md R157). -/
def bitMissing (i : Instr) (s : State) : Bool :=
  ([Instr.buildCodes, .huffDec].contains i && !s.model.treeValid)
    || (i == .huffEnc && !s.model.codesValid)
    || ([Instr.arithEnc, .arithDec].contains i && !s.model.partValid)

/-- Step 2 of 40_control.md R155 raises. -/
def overLimit (i : Instr) (s : State) : Bool :=
  s.operands.sizeLimit != 0
    && ((readsSource i && decide (s.operands.srcLen.toNat > s.operands.sizeLimit.toNat))
      || (i == .arithDec && decide (s.operands.symCount.toNat > s.operands.sizeLimit.toNat)))

/-- The first address after the source range. -/
def srcEnd (s : State) : Nat := s.operands.srcAddr.toNat + s.operands.srcLen.toNat

/-- The first address after the destination range. -/
def dstEnd (s : State) : Nat := s.operands.dstAddr.toNat + s.operands.dstCap.toNat

/-- Step 3 of 40_control.md R155 raises; MEM_SIZE is `memTop` + 1. -/
def badRange (i : Instr) (s : State) : Bool :=
  (readsSource i && decide (srcEnd s > s.memTop.toNat + 1))
    || (writesDest i && decide (dstEnd s > s.memTop.toNat + 1))
    || (readsSource i && writesDest i && decide (s.operands.srcLen.toNat > 0) && decide (s.operands.dstCap.toNat > 0)
      && decide (s.operands.srcAddr.toNat < dstEnd s) && decide (s.operands.dstAddr.toNat < srcEnd s))

/-- The code of the first error of steps 2 to 4 of 40_control.md R155. -/
def earlyCode (i : Instr) (s : State) : Option (BitVec 4) :=
  if overLimit i s then some 8 else if badRange i s then some 6 else if bitMissing i s then some 5 else none

/-- The body: the bytes of the source range, in order (00_scope.md R21). -/
def body (s : State) : List Byte :=
  (List.range s.operands.srcLen.toNat).map (fun i => s.readByte (s.operands.srcAddr.toNat + i))

/-- Bit i of the bitstream at byte a: bit 7 - (i mod 8) of byte a + (i div 8) (20_memory.md R104). -/
def streamBit (s : State) (a i : Nat) : Bool := (s.readByte (a + i / 8)).getLsbD (7 - i % 8)

/-- The first n bits of the bitstream at byte a. -/
def stream (s : State) (a n : Nat) : Bits := (List.range n).map (streamBit s a)

/-- No byte of MEM outside the n bytes from address a on differs. -/
def sameOutside (s t : State) (a n : Nat) : Prop := ∀ x, ¬ (a ≤ x ∧ x < a + n) → t.readByte x = s.readByte x

/-- The string stands in MEM from address a on. -/
def holds (t : State) (a : Nat) (bs : List Byte) : Prop := ∀ j, j < bs.length → t.readByte (a + j) = bs.getD j 0

/-- The bits stand packed in MEM from address a on, with the padding bits of the last byte 0 (20_memory.md R104,
R106). -/
def holdsPacked (t : State) (a : Nat) (bits : Bits) : Prop :=
  ∀ i, i < 8 * ((bits.length + 7) / 8) → streamBit t a i = bits.getD i false

/-- Everything of `t` but STATUS, P and the given results is as in `s`: what a successful command that writes the
destination range may change is MEM, OUT_LEN, BIT_LEN and SYM_COUNT (40_control.md R157). -/
def doneWith (s t : State) (outLen bitLen symCount : Word) : Prop :=
  t = { done s with mem := t.mem, outLen := outLen, bitLen := bitLen, symCount := symCount }

/-- A command that completed with an error of step 6 or 7: STATUS, and the destination bytes drawn anew
(40_control.md R156). -/
def failedLate (code : BitVec 4) (s t : State) : Prop :=
  t = { failed code s with mem := t.mem, draws := s.draws + s.operands.dstCap.toNat }
    ∧ sameOutside s t s.operands.dstAddr.toNat s.operands.dstCap.toNat
    ∧ ∀ k, k < s.operands.dstCap.toNat →
        t.readByte (s.operands.dstAddr.toNat + k) = Config.freeByte (s.draws + k)

/-- The sum of FREQ. -/
def freqSum (f : Table Word 256) : Nat := (f.entries.map BitVec.toNat).sum

/-- FREQ[b]. -/
def count (f : Table Word 256) (b : Byte) : Nat := (f.get b.toNat 0).toNat

/-- All 256 symbols in ascending order. -/
def symbols : List Byte := (List.range 256).map (BitVec.ofNat 8)

/-- The symbols with a count above 0, in ascending order. -/
def present (f : Table Word 256) : List Byte := symbols.filter (fun b => decide (0 < count f b))

/-- The little-endian 32-bit word at address a (41_frequency.md R183). -/
def word32 (s : State) (a : Nat) : Nat :=
  (s.readByte a).toNat + 256 * (s.readByte (a + 1)).toNat + 65536 * (s.readByte (a + 2)).toNat
    + 16777216 * (s.readByte (a + 3)).toNat

/-- MODEL with every valid bit 0 and the given number of distinct symbols (41_frequency.md R181). -/
def freshModel (k : Nat) : ModelReg := ⟨false, false, false, BitVec.ofNat 9 k⟩

/-- The weight of an arena entry (42_huffman.md R200). -/
def weight (t : Arena) (i : Nat) : Nat :=
  match t.nodeAt i with
  | .leaf _ w => w.toNat
  | .internal _ _ w => w.toNat
  | .unused => 0

/-- Entry m is an internal node with child j. -/
def isChild (t : Arena) (m j : Nat) : Prop := ∃ l r w, t.nodeAt m = .internal l r w ∧ (l.toNat = j ∨ r.toNat = j)

/-- Entry j is active when node n is made, k leaves having been inserted first: it exists and no earlier merge took
it (42_huffman.md R200). -/
def activeAt (t : Arena) (k n j : Nat) : Prop := j < n ∧ ∀ m, k ≤ m → m < n → ¬ isChild t m j

/-- Entry i is extracted no later than entry j: least weight, then least index (42_huffman.md R201). -/
def notAfter (t : Arena) (i j : Nat) : Prop := weight t i < weight t j ∨ (weight t i = weight t j ∧ i ≤ j)

/-- The arena is the tree of FREQ by 42_huffman.md R200 to R202. -/
structure TreeOf (f : Table Word 256) (t : Arena) : Prop where
  count_eq : t.count.toNat = 2 * (present f).length - 1
  root_none : (present f).length = 0 → t.root = 0x1FF
  root_last : 0 < (present f).length → t.root.toNat = t.count.toNat - 1
  leaves : ∀ j, ∀ h : j < (present f).length,
    t.nodeAt j = .leaf ((present f)[j]) (BitVec.ofNat 32 (count f ((present f)[j])))
  merges : ∀ n, (present f).length ≤ n → n < t.count.toNat → ∃ l r w, t.nodeAt n = .internal l r w
    ∧ activeAt t (present f).length n l.toNat
    ∧ activeAt t (present f).length n r.toNat
    ∧ l ≠ r
    ∧ w.toNat = weight t l.toNat + weight t r.toNat
    ∧ (∀ j, activeAt t (present f).length n j → notAfter t l.toNat j)
    ∧ (∀ j, activeAt t (present f).length n j → j ≠ l.toNat → notAfter t r.toNat j)
  unused : ∀ j, t.count.toNat ≤ j → t.nodeAt j = .unused

/-- The entry reached from entry i by a path: bit 0 to the left child, bit 1 to the right (42_huffman.md R204). -/
def follow (t : Arena) (i : Nat) : Bits → Option Nat
  | [] => some i
  | b :: rest =>
    match t.nodeAt i with
    | .internal l r _ => follow t (if b then r.toNat else l.toNat) rest
    | .leaf _ _ => none
    | .unused => none

/-- The bits are the paths from ROOT to the leaves of the symbols, one after another (42_huffman.md R208). -/
inductive Spells (t : Arena) : List Byte → Bits → Prop
  | nil : Spells t [] []
  | cons (sym : Byte) (w : Word) (i : Nat) (path : Bits) (out : List Byte) (bits : Bits) :
      path ≠ [] → follow t t.root.toNat path = some i → t.nodeAt i = .leaf sym w → Spells t out bits →
      Spells t (sym :: out) (path ++ bits)

/-- The encoder's renormalisation loop run to its exit (43_arith.md R233); the constants are those of R231. -/
inductive EncLoop : Enc → Enc → Prop
  | exit (e : Enc) :
      ¬ e.high < 2 ^ 31 → ¬ 2 ^ 31 ≤ e.low → ¬ (2 ^ 30 ≤ e.low ∧ e.high < 3 * 2 ^ 30) → EncLoop e e
  | zero (e f : Enc) : e.high < 2 ^ 31 →
      EncLoop ⟨2 * e.low, 2 * e.high + 1, 0, e.bits ++ (false :: List.replicate e.pending true)⟩ f → EncLoop e f
  | one (e f : Enc) : ¬ e.high < 2 ^ 31 → 2 ^ 31 ≤ e.low →
      EncLoop ⟨2 * (e.low - 2 ^ 31), 2 * (e.high - 2 ^ 31) + 1, 0, e.bits ++ (true :: List.replicate e.pending false)⟩ f →
      EncLoop e f
  | under (e f : Enc) : ¬ e.high < 2 ^ 31 → ¬ 2 ^ 31 ≤ e.low → 2 ^ 30 ≤ e.low → e.high < 3 * 2 ^ 30 →
      EncLoop ⟨2 * (e.low - 2 ^ 30), 2 * (e.high - 2 ^ 30) + 1, e.pending + 1, e.bits⟩ f → EncLoop e f

/-- low' of Narrow (43_arith.md R232). -/
def narrowLow (low high cl total : Nat) : Nat := low + ((high - low + 1) * cl) / total

/-- high' of Narrow (43_arith.md R232). -/
def narrowHigh (low high ch total : Nat) : Nat := low + ((high - low + 1) * ch) / total - 1

/-- The encoder's loop over a body (43_arith.md R235). -/
inductive EncBody (cum : Table Word 257) : Enc → List Byte → Enc → Prop
  | nil (e : Enc) : EncBody cum e [] e
  | cons (e f g : Enc) (b : Byte) (rest : List Byte) :
      cumAt cum (b.toNat + 1) ≠ cumAt cum b.toNat →
      EncLoop ⟨narrowLow e.low e.high (cumAt cum b.toNat) (cumAt cum 256),
        narrowHigh e.low e.high (cumAt cum (b.toNat + 1)) (cumAt cum 256), e.pending, e.bits⟩ f →
      EncBody cum f rest g → EncBody cum e (b :: rest) g

/-- The bits after termination (43_arith.md R234): pending + 1, then 0 if low < QUARTER and 1 otherwise, with the
pending bits behind it. -/
def terminated (e : Enc) : Bits :=
  if e.low < 2 ^ 30 then e.bits ++ (false :: List.replicate (e.pending + 1) true)
  else e.bits ++ (true :: List.replicate (e.pending + 1) false)

/-- The decoder's renormalisation loop run to its exit (43_arith.md R238). -/
inductive DecLoop (bits : Bits) : Dec → Dec → Prop
  | exit (d : Dec) :
      ¬ d.high < 2 ^ 31 → ¬ 2 ^ 31 ≤ d.low → ¬ (2 ^ 30 ≤ d.low ∧ d.high < 3 * 2 ^ 30) → DecLoop bits d d
  | zero (d f : Dec) : d.high < 2 ^ 31 →
      DecLoop bits ⟨2 * d.low, 2 * d.high + 1, 2 * d.value + (bits.getD d.pos false).toNat, d.pos + 1⟩ f →
      DecLoop bits d f
  | one (d f : Dec) : ¬ d.high < 2 ^ 31 → 2 ^ 31 ≤ d.low →
      DecLoop bits ⟨2 * (d.low - 2 ^ 31), 2 * (d.high - 2 ^ 31) + 1,
        2 * (d.value - 2 ^ 31) + (bits.getD d.pos false).toNat, d.pos + 1⟩ f → DecLoop bits d f
  | under (d f : Dec) : ¬ d.high < 2 ^ 31 → ¬ 2 ^ 31 ≤ d.low → 2 ^ 30 ≤ d.low → d.high < 3 * 2 ^ 30 →
      DecLoop bits ⟨2 * (d.low - 2 ^ 30), 2 * (d.high - 2 ^ 30) + 1,
        2 * (d.value - 2 ^ 30) + (bits.getD d.pos false).toNat, d.pos + 1⟩ f → DecLoop bits d f

/-- target (43_arith.md R237). -/
def target (d : Dec) (total : Nat) : Nat := ((d.value - d.low + 1) * total - 1) / (d.high - d.low + 1)

/-- The decoder's loop (43_arith.md R237): one symbol after another, each the only one whose interval holds target, with
low <= value <= high before it (R239). -/
inductive DecBody (cum : Table Word 257) (bits : Bits) : Dec → List Byte → Prop
  | nil (d : Dec) : DecBody cum bits d []
  | cons (d f : Dec) (b : Byte) (out : List Byte) :
      d.low ≤ d.value → d.value ≤ d.high →
      cumAt cum b.toNat ≤ target d (cumAt cum 256) → target d (cumAt cum 256) < cumAt cum (b.toNat + 1) →
      (∀ c : Byte, cumAt cum c.toNat ≤ target d (cumAt cum 256) → target d (cumAt cum 256) < cumAt cum (c.toNat + 1) →
        c = b) →
      DecLoop bits ⟨narrowLow d.low d.high (cumAt cum b.toNat) (cumAt cum 256),
        narrowHigh d.low d.high (cumAt cum (b.toNat + 1)) (cumAt cum 256), d.value, d.pos⟩ f →
      DecBody cum bits f out → DecBody cum bits d (b :: out)

/-- The number the first n bits write, the first bit the most significant, bits past the end 0. -/
def leadingValue (bits : Bits) : Nat → Nat
  | 0 => 0
  | n + 1 => 2 * leadingValue bits n + (bits.getD n false).toNat

/-- The decoder's working values before the first symbol (43_arith.md R237). -/
def decStart (bits : Bits) : Dec := ⟨0, 2 ^ 32 - 1, leadingValue bits 32, 32⟩

end Sys2Proof.Claims

open Sys2Proof Sys2Proof.Machine Sys2Proof.Claims

/-! ### Encoding -/

/-- 30_encoding.md R133: each of the 14 command words decodes to its command. -/
def Obligations.TableWordsDecode : Prop :=
  decode 0x00000000#32 = .ok .nop
    ∧ decode 0x00000001#32 = .ok .clearModel
    ∧ decode 0x00000002#32 = .ok .scan
    ∧ decode 0x00000003#32 = .ok .loadFreq
    ∧ decode 0x00000004#32 = .ok .saveFreq
    ∧ decode 0x00000005#32 = .ok .buildTree
    ∧ decode 0x00000006#32 = .ok .buildCodes
    ∧ decode 0x00000007#32 = .ok .buildPart
    ∧ decode 0x00000008#32 = .ok .huffEnc
    ∧ decode 0x00000009#32 = .ok .huffDec
    ∧ decode 0x0000000A#32 = .ok .arithEnc
    ∧ decode 0x0000000B#32 = .ok .arithDec
    ∧ decode 0x0000000C#32 = .ok .pack
    ∧ decode 0x0000000D#32 = .ok .unpack

/-- 30_encoding.md R133, R134: decoding an encoded well-formed command gives it back, and a word that decodes to a
command is that command's word. -/
def Obligations.DecodeAndEncodeAgree : Prop :=
  (∀ i : Instr, i.wellFormed = true → decode (encode i) = .ok i)
    ∧ ∀ (w : Word) (i : Instr), decode w = .ok i → w = encode i

/-- 30_encoding.md R134: a word with a non-zero RESERVED field or an OPCODE above 0x0D is Illegal, every other is the
command with that OPCODE. -/
def Obligations.DecodeIsTotalByField : Prop :=
  ∀ w : Word,
    (w.toNat / 256 ≠ 0 → ∃ e, decode w = .error e)
      ∧ (w.toNat / 256 = 0 → 0x0D < w.toNat % 256 → ∃ e, decode w = .error e)
      ∧ (w.toNat / 256 = 0 → w.toNat % 256 ≤ 0x0D →
          ∃ i, decode w = .ok i ∧ (opcodeOf i).toNat = w.toNat % 256)

/-! ### Reset -/

/-- 10_state.md R79: what every register and table holds after reset, for every MEM_SIZE; every byte of MEM is a drawn
value. -/
def Obligations.ResetValuesAreAsListed : Prop :=
  ∀ top : Word,
    (∀ r : RegName, (State.resetAt top).regValue r =
        match r with
        | .id => 0x41444546
        | .version => 0x00000007
        | .treeInfo => 0x01FF0000
        | _ => 0)
      ∧ (State.resetAt top).status = ⟨false, false, false, 0, false⟩
      ∧ (∀ i, i < 256 → (State.resetAt top).freq.get i 1 = 0)
      ∧ (∀ i, i < 511 → (State.resetAt top).arena.node.get i (.leaf 0 0) = .unused)
      ∧ (State.resetAt top).arena.count = 0
      ∧ (State.resetAt top).arena.root = 0x1FF
      ∧ (∀ i, i < 256 → (State.resetAt top).code.get i [true] = [])
      ∧ (∀ i, i < 257 → (State.resetAt top).cum.get i 1 = 0)
      ∧ (State.resetAt top).latched = none
      ∧ (State.resetAt top).irq = false
      ∧ ∀ a, (State.resetAt top).readByte a = Config.powerOnByte 0 a

/-- 70_reset_and_hazards.md R340: the reset input gives every register and table its reset value, draws every byte of
MEM anew, and abandons a running command: no completion, no result, no error. What stands outside the core (the
host's operations, MEM_SIZE) stays, which is the model's choice (notes/assumptions/14.md). -/
def Obligations.ResetInputAbandonsTheCommand : Prop :=
  ∀ (s : State) (rest : List HostOp), s.host = .reset :: rest → s.engineMoves = false →
    ∃ t, step s = .next t
      ∧ t = { State.resetAt s.memTop with
          resets := s.resets + 1, draws := s.draws, host := rest, latencies := s.latencies, replies := s.replies }
      ∧ t.status = ⟨false, false, false, 0, false⟩
      ∧ t.irq = false
      ∧ ∀ a, t.readByte a = Config.powerOnByte (s.resets + 1) a

/-- The invariant holds right after reset, for every MEM_SIZE. -/
def Obligations.ResetSatisfiesTheInvariant : Prop := ∀ top : Word, Inv (State.resetAt top)

/-- Every step keeps the invariant (10_state.md R47, R72 to R77, 40_control.md R151, R158). -/
def Obligations.EveryStepKeepsTheInvariant : Prop := ∀ s t : State, Inv s → step s = .next t → Inv t

/-- 00_scope.md R11: MEM_SIZE is a parameter; no step changes it. -/
def Obligations.NoStepChangesMemSize : Prop := ∀ s t : State, step s = .next t → t.memTop = s.memTop

/-! ### The two agents -/

/-- 40_control.md R154: ENGINE's step runs the command CMD decodes to; otherwise HOST performs its next operation, or
nothing happens (60_exceptions.md R316). The word `withFetchWord` issues is the one the next step runs. Three points are
the model's choices: that an idle step with nothing to do answers the same state (notes/assumptions/1.md), which agent
moves (notes/assumptions/2.md), and that the very next step runs the word of `withFetchWord`, whatever BUSY was
(notes/assumptions/7.md). -/
def Obligations.StepRunsTheDecodedCommand : Prop :=
  (∀ (s : State) (i : Instr), s.engineMoves = true → decode s.cmd = .ok i → step s = exec i s)
    ∧ (∀ (s : State) (op : HostOp) (rest : List HostOp), s.engineMoves = false → s.host = op :: rest →
        step s = hostOp op { s with host := rest, hostTurns := s.hostTurns - 1 })
    ∧ (∀ s : State, s.status.busy = false → s.host = [] → step s = .next s)
    ∧ ∀ (s : State) (i : Instr),
        step (s.withFetchWord 32 (encode i).toNat) = exec i (s.withFetchWord 32 (encode i).toNat)
          ∧ (s.withFetchWord 32 (encode i).toNat).operands
              = ⟨s.srcAddr, s.srcLen, s.dstAddr, s.dstCap, s.bitLen, s.symCount, s.sizeLimit⟩

/-- 30_encoding.md R135: an illegal word is accepted as an issue and completes with ILLEGAL_COMMAND (code 4) and no
other effect. -/
def Obligations.IllegalWordCompletesWithItsError : Prop :=
  ∀ w : Word, (w.toNat / 256 ≠ 0 ∨ 0x0D < w.toNat % 256) →
    (∀ s : State, s.status.busy = false →
        ∃ t, hostRegWrite 32 0x008 w s = .next t ∧ t.cmd = w ∧ t.status.busy = true)
      ∧ ∀ s : State, s.cmd = w → s.engineMoves = true → step s = .next (failed 4 s)

/-- 40_control.md R154, 70_reset_and_hazards.md R351: an issued command completes, after at most the host steps planned
before it (the plan is the model's, notes/assumptions/2.md), when HOST makes no access the core does not define, does
not touch MEM and does not assert reset. -/
def Obligations.IssuedCommandCompletes : Prop :=
  ∀ s : State, s.status.busy = true →
    (∀ op ∈ s.host, op = .wait
      ∨ (∃ off v, off % 4 = 0 ∧ off < 0x100 ∧ op = .regWrite 32 off v)
      ∨ (∃ off, off % 4 = 0 ∧ off < 0x100 ∧ op = .regRead 32 off)) →
    ∃ n t, n ≤ s.hostTurns + 1 ∧ core.run n s = .next t ∧ State.status t = ⟨false, true, (State.status t).err,
      (State.status t).errcode, (State.status t).ovr⟩

/-! ### The register port -/

/-- 10_state.md R43: the register map. Each named register stands at its offset, 0x03C and 0x08C to 0x0FC are
reserved. -/
def Obligations.RegisterMapIsAsListed : Prop :=
  [0x000, 0x004, 0x008, 0x00C, 0x010, 0x014, 0x018, 0x01C, 0x020, 0x024, 0x028, 0x02C, 0x030, 0x034, 0x038].map registerAt
      = [RegName.id, .version, .cmd, .status, .irqEn, .sizeLimit, .srcAddr, .srcLen, .dstAddr, .dstCap, .bitLen,
          .symCount, .outLen, .model, .total].map some
    ∧ [0x040, 0x044, 0x048, 0x04C, 0x050, 0x054, 0x058, 0x05C, 0x060, 0x064, 0x068, 0x06C, 0x070, 0x074, 0x078, 0x07C,
          0x080, 0x084, 0x088].map registerAt
        = [RegName.freqIdx, .freqData, .nodeIdx, .nodeInfo, .nodeWeight, .treeInfo, .codeIdx, .codeLen, .codeW 0,
            .codeW 1, .codeW 2, .codeW 3, .codeW 4, .codeW 5, .codeW 6, .codeW 7, .partIdx, .partLow, .partHigh].map some
    ∧ registerAt 0x03C = none
    ∧ (∀ off, 0x08C ≤ off → registerAt off = none)
    ∧ ∀ r : RegName, registerAt (registerOffset r) = some r

/-- 40_control.md R150: a write of any word to CMD while BUSY = 0 stores it, sets BUSY, clears DONE, ERR and ERRCODE,
leaves OVR, and latches the seven operands; nothing else changes but the model's plan of host steps; ENGINE's step is
then the command the word decodes to. -/
def Obligations.CmdWriteIssuesAndLatches : Prop :=
  ∀ (s : State) (w : Word), s.status.busy = false →
    ∃ t, hostRegWrite 32 0x008 w s = .next t
      ∧ t = { s with
          cmd := w
          status := ⟨true, false, false, 0, s.status.ovr⟩
          latched := some ⟨s.srcAddr, s.srcLen, s.dstAddr, s.dstCap, s.bitLen, s.symCount, s.sizeLimit⟩
          hostTurns := t.hostTurns
          latencies := t.latencies }
      ∧ (∀ i, decode w = .ok i → engineStep t = exec i t)
      ∧ ∀ e, decode w = .error e → engineStep t = .next (failed 4 t)

/-- 40_control.md R152: while BUSY = 1 a write to any offset but STATUS and IRQ_EN changes no register and sets OVR;
writes to those two take effect. -/
def Obligations.WritesWhileBusyAreDropped : Prop :=
  ∀ (s : State) (off : Nat) (v : Word), s.status.busy = true → off % 4 = 0 → off < 0x100 →
    (off ≠ 0x00C → off ≠ 0x010 → hostRegWrite 32 off v s = .next { s with status := { s.status with ovr := true } })
      ∧ (off = 0x00C → hostRegWrite 32 off v s = .next { s with status :=
          { s.status with done := s.status.done && !v.getLsbD 1, ovr := s.status.ovr && !v.getLsbD 16 } })
      ∧ (off = 0x010 → hostRegWrite 32 off v s = .next { s with irqEn := v.getLsbD 0 })

/-- 10_state.md R47: a write to STATUS, whatever BUSY is, clears DONE where bit 1 is 1 and OVR where bit 16 is 1, and
does nothing else; the word of `ack` (30_encoding.md R137) clears both. -/
def Obligations.StatusWriteClearsDoneAndOvr : Prop :=
  ∀ (s : State) (v : Word),
    hostRegWrite 32 0x00C v s = .next { s with status :=
        { s.status with done := s.status.done && !v.getLsbD 1, ovr := s.status.ovr && !v.getLsbD 16 } }
      ∧ hostRegWrite 32 0x00C 0x00010002 s = .next { s with status := { s.status with done := false, ovr := false } }

/-- 10_state.md R48 to R55, R59, R61, R65, R68, R71: a write while BUSY = 0 reaches its register, with reserved bits
ignored; a write to a read-only register or a reserved slot changes nothing. -/
def Obligations.WritesWhileIdleReachTheirRegister : Prop :=
  ∀ (s : State) (v : Word), s.status.busy = false →
    hostRegWrite 32 0x010 v s = .next { s with irqEn := v.getLsbD 0 }
      ∧ hostRegWrite 32 0x014 v s = .next { s with sizeLimit := v }
      ∧ hostRegWrite 32 0x018 v s = .next { s with srcAddr := v }
      ∧ hostRegWrite 32 0x01C v s = .next { s with srcLen := v }
      ∧ hostRegWrite 32 0x020 v s = .next { s with dstAddr := v }
      ∧ hostRegWrite 32 0x024 v s = .next { s with dstCap := v }
      ∧ hostRegWrite 32 0x028 v s = .next { s with bitLen := v }
      ∧ hostRegWrite 32 0x02C v s = .next { s with symCount := v }
      ∧ hostRegWrite 32 0x040 v s = .next { s with freqIdx := v.extractLsb' 0 8 }
      ∧ hostRegWrite 32 0x048 v s = .next { s with nodeIdx := v.extractLsb' 0 9 }
      ∧ hostRegWrite 32 0x058 v s = .next { s with codeIdx := v.extractLsb' 0 8 }
      ∧ hostRegWrite 32 0x080 v s = .next { s with partIdx := v.extractLsb' 0 8 }
      ∧ ∀ off, off % 4 = 0 → off < 0x100 →
          off ∉ [0x008, 0x00C, 0x010, 0x014, 0x018, 0x01C, 0x020, 0x024, 0x028, 0x02C, 0x040, 0x048, 0x058, 0x080] →
          hostRegWrite 32 off v s = .next s

/-- 40_control.md R153, 10_state.md R71, 20_memory.md R110: a register read changes nothing of the core. It returns the
register's value; while BUSY = 1 a result register or window returns a drawn value; a reserved slot returns 0. -/
def Obligations.RegisterReadsReturn : Prop :=
  ∀ s : State,
    (∀ r : RegName,
      (s.status.busy = true →
        r ∈ [RegName.bitLen, .symCount, .outLen, .model, .total, .freqData, .nodeInfo, .nodeWeight, .treeInfo, .codeLen,
          .codeW 0, .codeW 1, .codeW 2, .codeW 3, .codeW 4, .codeW 5, .codeW 6, .codeW 7, .partLow, .partHigh] →
        hostRegRead 32 (registerOffset r) s = .next { s with
          replies := .reg (registerOffset r) (Config.freeWord s.draws) :: s.replies
          draws := s.draws + 1 })
      ∧ (s.status.busy = true →
        r ∈ [RegName.id, .version, .cmd, .status, .irqEn, .sizeLimit, .srcAddr, .srcLen, .dstAddr, .dstCap, .freqIdx,
          .nodeIdx, .codeIdx, .partIdx] →
        hostRegRead 32 (registerOffset r) s = .next { s with
          replies := .reg (registerOffset r) (s.regValue r) :: s.replies })
      ∧ (s.status.busy = false →
        hostRegRead 32 (registerOffset r) s = .next { s with
          replies := .reg (registerOffset r) (s.regValue r) :: s.replies }))
    ∧ ∀ off, off % 4 = 0 → (off = 0x03C ∨ (0x08C ≤ off ∧ off < 0x100)) →
        hostRegRead 32 off s = .next { s with replies := .reg off 0 :: s.replies }

/-- 10_state.md R44 to R61, R64, R65, R68 to R70: what the registers read as, field by field: the stored word for each
register of 32 bits, and INDEX with every reserved bit 0 for the four index registers. The windows NODE_INFO and
NODE_WEIGHT are in NodeWindowsReadTheArena, CODE_LEN and CODE_W0 to CODE_W7 in CodeWindowsReadTheCode. -/
def Obligations.RegisterFieldsAreAsDrawn : Prop :=
  ∀ s : State,
    s.regValue .id = 0x41444546
      ∧ s.regValue .version = 7
      ∧ (s.regValue .status).getLsbD 0 = s.status.busy
      ∧ (s.regValue .status).getLsbD 1 = s.status.done
      ∧ (s.regValue .status).getLsbD 2 = s.status.err
      ∧ (s.regValue .status).getLsbD 3 = false
      ∧ (s.regValue .status).extractLsb' 4 4 = s.status.errcode
      ∧ (s.regValue .status).extractLsb' 8 8 = 0
      ∧ (s.regValue .status).getLsbD 16 = s.status.ovr
      ∧ (s.regValue .status).extractLsb' 17 15 = 0
      ∧ (s.regValue .irqEn).getLsbD 0 = s.irqEn
      ∧ (s.regValue .irqEn).extractLsb' 1 31 = 0
      ∧ (s.regValue .model).getLsbD 0 = s.model.treeValid
      ∧ (s.regValue .model).getLsbD 1 = s.model.codesValid
      ∧ (s.regValue .model).getLsbD 2 = s.model.partValid
      ∧ (s.regValue .model).extractLsb' 3 5 = 0
      ∧ (s.regValue .model).extractLsb' 8 9 = s.model.distinct
      ∧ (s.regValue .model).extractLsb' 17 15 = 0
      ∧ (s.regValue .treeInfo).extractLsb' 0 10 = s.arena.count
      ∧ (s.regValue .treeInfo).extractLsb' 10 6 = 0
      ∧ (s.regValue .treeInfo).extractLsb' 16 9 = s.arena.root
      ∧ (s.regValue .treeInfo).extractLsb' 25 7 = 0
      ∧ s.regValue .cmd = s.cmd
      ∧ s.regValue .sizeLimit = s.sizeLimit
      ∧ s.regValue .srcAddr = s.srcAddr
      ∧ s.regValue .srcLen = s.srcLen
      ∧ s.regValue .dstAddr = s.dstAddr
      ∧ s.regValue .dstCap = s.dstCap
      ∧ s.regValue .bitLen = s.bitLen
      ∧ s.regValue .symCount = s.symCount
      ∧ s.regValue .outLen = s.outLen
      ∧ (s.regValue .freqIdx).extractLsb' 0 8 = s.freqIdx
      ∧ (s.regValue .freqIdx).extractLsb' 8 24 = 0
      ∧ (s.regValue .nodeIdx).extractLsb' 0 9 = s.nodeIdx
      ∧ (s.regValue .nodeIdx).extractLsb' 9 23 = 0
      ∧ (s.regValue .codeIdx).extractLsb' 0 8 = s.codeIdx
      ∧ (s.regValue .codeIdx).extractLsb' 8 24 = 0
      ∧ (s.regValue .partIdx).extractLsb' 0 8 = s.partIdx
      ∧ (s.regValue .partIdx).extractLsb' 8 24 = 0
      ∧ s.regValue .total = s.total
      ∧ s.regValue .freqData = s.freq.get s.freqIdx.toNat 0
      ∧ s.regValue .partLow = s.cum.get s.partIdx.toNat 0
      ∧ s.regValue .partHigh = s.cum.get (s.partIdx.toNat + 1) 0

/-- 10_state.md R62, R63: the node windows, for a leaf, an internal node, an unused entry and index 511. -/
def Obligations.NodeWindowsReadTheArena : Prop :=
  ∀ s : State,
    (∀ sym w, s.arena.node.get s.nodeIdx.toNat .unused = .leaf sym w →
      (s.regValue .nodeInfo).extractLsb' 0 9 = 0x1FF
        ∧ (s.regValue .nodeInfo).extractLsb' 9 9 = 0x1FF
        ∧ (s.regValue .nodeInfo).extractLsb' 18 8 = sym
        ∧ (s.regValue .nodeInfo).extractLsb' 26 4 = 0
        ∧ (s.regValue .nodeInfo).getLsbD 30 = true
        ∧ (s.regValue .nodeInfo).getLsbD 31 = true
        ∧ s.regValue .nodeWeight = w)
    ∧ (∀ l r w, s.arena.node.get s.nodeIdx.toNat .unused = .internal l r w →
      (s.regValue .nodeInfo).extractLsb' 0 9 = l
        ∧ (s.regValue .nodeInfo).extractLsb' 9 9 = r
        ∧ (s.regValue .nodeInfo).extractLsb' 18 8 = 0
        ∧ (s.regValue .nodeInfo).extractLsb' 26 4 = 0
        ∧ (s.regValue .nodeInfo).getLsbD 30 = true
        ∧ (s.regValue .nodeInfo).getLsbD 31 = false
        ∧ s.regValue .nodeWeight = w)
    ∧ (s.arena.node.get s.nodeIdx.toNat .unused = .unused →
      s.regValue .nodeInfo = 0 ∧ s.regValue .nodeWeight = 0)
    ∧ (s.nodeIdx = 511 → s.regValue .nodeInfo = 0 ∧ s.regValue .nodeWeight = 0)

/-- 10_state.md R66, R67: CODE_LEN reads the length of a code of at most 255 bits, and bit j of CODE_Wn is code bit
32n + j, or 0 past the code's end. -/
def Obligations.CodeWindowsReadTheCode : Prop :=
  ∀ s : State,
    ((s.code.get s.codeIdx.toNat []).length ≤ 255 →
      (s.regValue .codeLen).toNat = (s.code.get s.codeIdx.toNat []).length)
    ∧ ∀ (n : Fin 8) (j : Nat), j < 32 →
        (s.regValue (.codeW n)).getLsbD j =
          if 32 * n.val + j < (s.code.get s.codeIdx.toNat []).length
          then (s.code.get s.codeIdx.toNat []).getD (32 * n.val + j) false
          else false

/-- 10_state.md R78, 60_exceptions.md R310: IRQ = DONE and DONE_IE in every state, and 0 after reset; so a completion
raises an enabled line, an acknowledgement or an issue lowers it, and enabling it while DONE = 1 raises it. -/
def Obligations.InterruptFollowsDoneAndEnable : Prop :=
  (∀ s : State, s.irq = true ↔ s.status.done = true ∧ s.irqEn = true)
    ∧ (∀ top : Word, (State.resetAt top).irq = false)
    ∧ (∀ (i : Instr) (s t : State), exec i s = .next t → t.irq = s.irqEn)
    ∧ (∀ (s t : State) (v : Word), v.getLsbD 1 = true → hostRegWrite 32 0x00C v s = .next t → t.irq = false)
    ∧ (∀ (s t : State) (w : Word), s.status.busy = false → hostRegWrite 32 0x008 w s = .next t → t.irq = false)
    ∧ (∀ (s t : State) (v : Word), s.status.done = true → v.getLsbD 0 = true →
        hostRegWrite 32 0x010 v s = .next t → t.irq = true)

/-- 60_exceptions.md R308: the three host actions with no defined behaviour stop the run, each with its own fault; every
other register access goes on. That a MEM access both while BUSY = 1 and at or above MEM_SIZE is reported as the access
while busy is the model's choice (notes/assumptions/12.md). -/
def Obligations.UndefinedHostActionsFault : Prop :=
  ∀ s : State,
    (∀ (width off : Nat) (v : Word), ¬ (width = 32 ∧ off % 4 = 0 ∧ off < 0x100) →
      hostRegWrite width off v s = .fault .regAccessUndefined
        ∧ hostRegRead width off s = .fault .regAccessUndefined)
    ∧ (∀ (off : Nat) (v : Word), off % 4 = 0 → off < 0x100 →
      (∃ t, hostRegWrite 32 off v s = .next t) ∧ ∃ t, hostRegRead 32 off s = .next t)
    ∧ (∀ (a : Nat) (v : Byte), s.status.busy = true →
      hostMemWrite a v s = .fault .memAccessWhileBusy ∧ hostMemRead a s = .fault .memAccessWhileBusy)
    ∧ (∀ (a : Nat) (v : Byte), s.status.busy = false → s.memTop.toNat + 1 ≤ a →
      hostMemWrite a v s = .fault .memAddressOutOfRange ∧ hostMemRead a s = .fault .memAddressOutOfRange)

/-! ### The memory port -/

/-- 20_memory.md R100, R101, R110, R113: while BUSY = 0 a read at any address inside MEM answers the byte MEM holds
there, whether HOST wrote it, a command did or nothing has since reset, and changes nothing. A byte the host writes is
the byte it reads back, and every other byte and every register is unchanged. -/
def Obligations.HostByteWriteThenRead : Prop :=
  ∀ (s : State) (a : Nat), s.status.busy = false → a ≤ s.memTop.toNat →
    hostMemRead a s = .next { s with replies := .mem a (s.readByte a) :: s.replies }
      ∧ ∀ v : Byte, ∃ t, hostMemWrite a v s = .next t
        ∧ t = { s with mem := t.mem }
        ∧ t.readByte a = v
        ∧ (∀ b, b ≠ a → t.readByte b = s.readByte b)
        ∧ hostMemRead a t = .next { t with replies := .mem a v :: t.replies }

/-- 20_memory.md R103: a host write of n bytes is the sequence of its byte writes in little-endian order. -/
def Obligations.WideHostWriteIsLittleEndian : Prop :=
  ∀ (s : State) (a n v : Nat), s.status.busy = false → a + n ≤ s.memTop.toNat + 1 → s.host = wideMemWrite a n v →
    ∃ t, core.run n s = .next t
      ∧ (∀ j, j < n → State.readByte t (a + j) = BitVec.ofNat 8 (v / 256 ^ j % 256))
      ∧ sameOutside s t a n

/-- 30_encoding.md R136, R137: what every statement and pseudo-statement expands to, for every register, command, address
and list of bytes; and the example encodings of R138. That `wait`, alone or in `run`, stands in the list as one operation
is the model's choice (notes/assumptions/13.md). -/
def Obligations.HostStatementsEncode : Prop :=
  expandStmt (.cmd .huffEnc) = [.regWrite 32 0x008 0x00000008]
    ∧ expandStmt (.wr .srcLen 6) = [.regWrite 32 0x01C 0x00000006]
    ∧ expandStmt .ack = [.regWrite 32 0x00C 0x00010002]
    ∧ decode 0x0000010A#32 = .error .reservedNotZero
    ∧ (splitWord 0x0000010A#32).reserved = 0x000001
    ∧ (∀ r v, expandStmt (.wr r v) = [.regWrite 32 (registerOffset r) v])
    ∧ (∀ r, expandStmt (.rd r) = [.regRead 32 (registerOffset r)])
    ∧ (∀ a bs j, (expandStmt (.mwr a bs))[j]? = bs[j]?.map (fun b => HostOp.memWrite (a + j) b))
    ∧ (∀ a n j, (expandStmt (.mrd a n))[j]? = if j < n then some (HostOp.memRead (a + j)) else none)
    ∧ (∀ i, expandStmt (.cmd i) = [.regWrite 32 0x008 (encode i)])
    ∧ expandStmt .wait = [.wait]
    ∧ (∀ i, expandStmt (.run i) = [.regWrite 32 0x008 (encode i), .wait])
    ∧ (∀ a n, expandStmt (.src a n) = [.regWrite 32 0x018 a, .regWrite 32 0x01C n])
    ∧ (∀ a n, expandStmt (.dst a n) = [.regWrite 32 0x020 a, .regWrite 32 0x024 n])
    ∧ ∀ r v, expandStmt (.expect r v) = [.regRead 32 (registerOffset r)]

/-- 30_encoding.md R137: one pass of `wait` reads STATUS and goes on while the BUSY read is 1. That the loop stands in the
host's queue as one operation is the model's choice (notes/assumptions/13.md). -/
def Obligations.WaitPollsStatus : Prop :=
  ∀ (s : State) (rest : List HostOp), s.engineMoves = false → s.host = .wait :: rest →
    step s = .next { s with
      host := if s.status.busy then .wait :: rest else rest
      hostTurns := s.hostTurns - 1
      replies := .reg 0x00C (s.regValue .status) :: s.replies }

/-- 10_state.md R56 to R58, R72 to R75: HOST changes none of FREQ, NODE, NODE_COUNT, ROOT, CODE, CUM, MODEL, TOTAL and
OUT_LEN: only commands and reset do. It changes BIT_LEN and SYM_COUNT only by a write to that register while BUSY = 0
(R54, R55, 40_control.md R152), and MEM only by byte writes on the memory port. -/
def Obligations.HostWritesNoTable : Prop :=
  ∀ (s t : State) (op : HostOp) (rest : List HostOp), s.engineMoves = false → s.host = op :: rest → op ≠ .reset →
    step s = .next t →
    t.freq = s.freq ∧ t.arena = s.arena ∧ t.code = s.code ∧ t.cum = s.cum ∧ t.model = s.model ∧ t.total = s.total
      ∧ t.outLen = s.outLen
      ∧ ((∀ v, op ≠ .regWrite 32 0x028 v) → t.bitLen = s.bitLen)
      ∧ ((∀ v, op ≠ .regWrite 32 0x02C v) → t.symCount = s.symCount)
      ∧ (s.status.busy = true → t.bitLen = s.bitLen ∧ t.symCount = s.symCount)
      ∧ ((∀ a v, op ≠ .memWrite a v) → t.mem = s.mem)

/-! ### What every command shares -/

/-- 40_control.md R154: every command completes in one step: BUSY 0, DONE 1, ERR exactly when ERRCODE is not 0, OVR
unchanged, P gone. -/
def Obligations.EveryCommandCompletes : Prop :=
  ∀ (i : Instr) (s : State), ∃ t, exec i s = .next t
    ∧ t.status.busy = false
    ∧ t.status.done = true
    ∧ (t.status.err = true ↔ t.status.errcode ≠ 0)
    ∧ t.status.ovr = s.status.ovr
    ∧ t.latched = none

/-- 40_control.md R155 steps 2 to 4, R157, 60_exceptions.md R304: the size guard, then the ranges, then the valid bit;
the first that fails is the error, and it changes STATUS only. -/
def Obligations.EarlyChecksInOrder : Prop :=
  ∀ (i : Instr) (s : State),
    (overLimit i s = true → exec i s = .next (failed 8 s))
      ∧ (overLimit i s = false → badRange i s = true → exec i s = .next (failed 6 s))
      ∧ (overLimit i s = false → badRange i s = false → bitMissing i s = true → exec i s = .next (failed 5 s))

/-- 40_control.md R156, 60_exceptions.md R306: an error of steps 1 to 5 changes STATUS only; an error of step 6 or 7
changes STATUS and draws the bytes of the destination range anew, and nothing else. The codes 4, 8, 6, 5, 1 and 3 are
those of steps 1 to 5, the codes 2 and 7 those of steps 6 and 7 (R155, 60_exceptions.md R300). -/
def Obligations.ErrorsArePrecise : Prop :=
  (∀ (i : Instr) (s t : State), exec i s = .next t → t.status.errcode ≠ 0 →
    (t.status.errcode ∈ [1#4, 3#4, 4#4, 5#4, 6#4, 8#4] ∧ t = failed t.status.errcode s)
      ∨ (t.status.errcode ∈ [2#4, 7#4] ∧ failedLate t.status.errcode s t))
    ∧ ∀ (s : State) (e : DecodeError), decode s.cmd = .error e → engineStep s = .next (failed 4 s)

/-- 60_exceptions.md R307: a failed command issued again, with its operands and the model as they were, raises the same
error. -/
def Obligations.RetryRaisesTheSameError : Prop :=
  ∀ (i : Instr) (s t : State), Inv s → exec i s = .next t → t.status.errcode ≠ 0 →
    ∃ u, exec i (t.issueNow (encode i)) = .next u ∧ u.status.errcode = t.status.errcode

/-- 20_memory.md R102: a command reads no byte of MEM outside its source range: on two states that differ only in MEM and
agree on the source range (when the command reads it) it ends alike, and no byte in which they agreed comes to
differ. For the bytes an error of step 6 or 7 draws (40_control.md R156), which R154 exempts, this holds because draw k
depends on the count of draws alone: that part is the model's choice (notes/assumptions/5.md), not the rule's. -/
def Obligations.CommandsReadOnlyTheirSource : Prop :=
  ∀ (i : Instr) (s : State) (m : List Host.Cell),
    (readsSource i = true → ∀ x, s.operands.srcAddr.toNat ≤ x → x < srcEnd s →
      ({ s with mem := m } : State).readByte x = s.readByte x) →
    ∃ t u, exec i s = .next t ∧ exec i { s with mem := m } = .next u
      ∧ u = { t with mem := u.mem }
      ∧ ∀ x, ({ s with mem := m } : State).readByte x = s.readByte x → u.readByte x = t.readByte x

/-- 60_exceptions.md R301: a command raises no error but those of its row. -/
def Obligations.CommandsRaiseOnlyTheirErrors : Prop :=
  ∀ (i : Instr) (s t : State), exec i s = .next t →
    t.status.errcode ∈
      match i with
      | .nop => [0#4]
      | .clearModel => [0#4]
      | .scan => [0#4, 8#4, 6#4]
      | .loadFreq => [0#4, 8#4, 6#4, 1#4]
      | .saveFreq => [0#4, 6#4, 7#4]
      | .buildTree => [0#4]
      | .buildCodes => [0#4, 5#4]
      | .buildPart => [0#4, 3#4]
      | .huffEnc => [0#4, 8#4, 6#4, 5#4, 2#4, 7#4]
      | .huffDec => [0#4, 8#4, 6#4, 5#4, 1#4, 2#4, 7#4]
      | .arithEnc => [0#4, 8#4, 6#4, 5#4, 2#4, 7#4]
      | .arithDec => [0#4, 8#4, 6#4, 5#4, 1#4, 2#4, 7#4]
      | .pack => [0#4, 8#4, 6#4, 1#4, 7#4]
      | .unpack => [0#4, 8#4, 6#4, 1#4, 7#4]

/-- 40_control.md R157: on success a command writes nothing but the registers, tables and destination bytes of its row.
-/
def Obligations.SuccessWritesOnlyItsRow : Prop :=
  ∀ (i : Instr) (s t : State), exec i s = .next t → t.status.errcode = 0 →
    (i ∉ [Instr.clearModel, .scan, .loadFreq] → t.freq = s.freq ∧ t.total = s.total)
      ∧ (i ∉ [Instr.clearModel, .buildTree] → t.arena = s.arena)
      ∧ (i ∉ [Instr.clearModel, .buildCodes] → t.code = s.code)
      ∧ (i ∉ [Instr.clearModel, .buildPart] → t.cum = s.cum)
      ∧ (i ∉ [Instr.clearModel, .scan, .loadFreq, .buildTree, .buildCodes, .buildPart] → t.model = s.model)
      ∧ (i ∉ [Instr.huffEnc, .arithEnc, .pack] → t.bitLen = s.bitLen)
      ∧ (i ∉ [Instr.huffEnc, .huffDec, .arithEnc] → t.symCount = s.symCount)
      ∧ (writesDest i = false → t.outLen = s.outLen ∧ ∀ a, t.readByte a = s.readByte a)
      ∧ (writesDest i = true → t.outLen.toNat ≤ s.operands.dstCap.toNat
          ∧ sameOutside s t s.operands.dstAddr.toNat t.outLen.toNat)
      ∧ t = { done s with
          freq := t.freq, total := t.total, arena := t.arena, code := t.code, cum := t.cum, model := t.model,
          bitLen := t.bitLen, symCount := t.symCount, outLen := t.outLen, mem := t.mem }

/-- 40_control.md R158: the valid bits after each command; on error none changes. -/
def Obligations.ValidBitsFollowTheTable : Prop :=
  ∀ (i : Instr) (s t : State), exec i s = .next t →
    (t.status.errcode ≠ 0 → t.model = s.model)
      ∧ (t.status.errcode = 0 →
          (t.model.treeValid, t.model.codesValid, t.model.partValid) =
            match i with
            | .clearModel => (false, false, false)
            | .scan => (false, false, false)
            | .loadFreq => (false, false, false)
            | .buildTree => (true, false, s.model.partValid)
            | .buildCodes => (s.model.treeValid, true, s.model.partValid)
            | .buildPart => (s.model.treeValid, s.model.codesValid, true)
            | _ => (s.model.treeValid, s.model.codesValid, s.model.partValid))

/-! ### Control and frequency commands -/

/-- 40_control.md R160: NOP writes STATUS only, as every completion, and never raises an error. -/
def Obligations.NopOnlyCompletes : Prop := ∀ s : State, exec .nop s = .next (done s)

/-- 40_control.md R161: CLEAR_MODEL returns every table, TOTAL and MODEL to the reset value, and touches nothing else. -/
def Obligations.ClearModelEmptiesTheModel : Prop :=
  ∀ s : State, ∃ (f : Table Word 256) (n : Table Node 511) (c : Table Bits 256) (u : Table Word 257),
    exec .clearModel s = .next { done s with
        freq := f, arena := ⟨n, 0, 0x1FF⟩, code := c, cum := u, total := 0, model := ⟨false, false, false, 0⟩ }
      ∧ (∀ i, i < 256 → f.get i 1 = 0)
      ∧ (∀ i, i < 511 → n.get i (.leaf 0 0) = .unused)
      ∧ (∀ i, i < 256 → c.get i [true] = [])
      ∧ ∀ i, i < 257 → u.get i 1 = 0

/-- 41_frequency.md R180, R184: SCAN raises an error of steps 2 and 3 or replaces FREQ by the number of positions of the
body that hold each symbol, with TOTAL = SRC_LEN and DISTINCT the number of different bytes, and clears the valid
bits; nothing else changes. -/
def Obligations.ScanCountsTheBody : Prop :=
  ∀ s : State,
    (∀ c, earlyCode .scan s = some c → exec .scan s = .next (failed c s))
      ∧ (earlyCode .scan s = none → ∃ f : Table Word 256,
          exec .scan s = .next { done s with
              freq := f, total := s.operands.srcLen, model := freshModel (body s).dedup.length }
            ∧ (∀ b : Byte, count f b = (body s).count b)
            ∧ freqSum f = s.operands.srcLen.toNat)

/-- 41_frequency.md R182: LOAD_FREQ refuses an image shorter than 1024 bytes or one whose counts sum past 0xFFFF_FFFF;
otherwise FREQ[s] is the little-endian word at offset 4s; nothing else changes. -/
def Obligations.LoadFreqReadsTheImage : Prop :=
  ∀ s : State,
    (∀ c, earlyCode .loadFreq s = some c → exec .loadFreq s = .next (failed c s))
      ∧ (earlyCode .loadFreq s = none → s.operands.srcLen.toNat < 1024 → exec .loadFreq s = .next (failed 1 s))
      ∧ (earlyCode .loadFreq s = none → 1024 ≤ s.operands.srcLen.toNat →
          0xFFFFFFFF < (symbols.map (fun b => word32 s (s.operands.srcAddr.toNat + 4 * b.toNat))).sum →
          exec .loadFreq s = .next (failed 1 s))
      ∧ (earlyCode .loadFreq s = none → 1024 ≤ s.operands.srcLen.toNat →
          (symbols.map (fun b => word32 s (s.operands.srcAddr.toNat + 4 * b.toNat))).sum ≤ 0xFFFFFFFF →
          ∃ f : Table Word 256,
            exec .loadFreq s = .next { done s with
                freq := f
                total := BitVec.ofNat 32 (symbols.map (fun b => word32 s (s.operands.srcAddr.toNat + 4 * b.toNat))).sum
                model := freshModel (present f).length }
              ∧ ∀ b : Byte, count f b = word32 s (s.operands.srcAddr.toNat + 4 * b.toNat))

/-- 41_frequency.md R183: SAVE_FREQ writes the 1024 bytes of the image, FREQ[s] little-endian at offset 4s, and
OUT_LEN = 1024; DST_OVERFLOW when they do not fit; every other byte and register is unchanged. -/
def Obligations.SaveFreqWritesTheImage : Prop :=
  ∀ s : State,
    (∀ c, earlyCode .saveFreq s = some c → exec .saveFreq s = .next (failed c s))
      ∧ (earlyCode .saveFreq s = none → s.operands.dstCap.toNat < 1024 →
          ∃ t, exec .saveFreq s = .next t ∧ failedLate 7 s t)
      ∧ (earlyCode .saveFreq s = none → 1024 ≤ s.operands.dstCap.toNat →
          ∃ t, exec .saveFreq s = .next t
            ∧ doneWith s t 1024 s.bitLen s.symCount
            ∧ (∀ b : Byte, word32 t (s.operands.dstAddr.toNat + 4 * b.toNat) = count s.freq b)
            ∧ sameOutside s t s.operands.dstAddr.toNat 1024)

/-- 41_frequency.md R183: LOAD_FREQ of a SAVE_FREQ image restores FREQ exactly. `t` is the state after the save, `u` any
state that holds the saved bytes at its source range. -/
def Obligations.LoadOfSavedImageRestoresFreq : Prop :=
  ∀ s t u : State, exec .saveFreq s = .next t → t.status.errcode = 0 → freqSum s.freq ≤ 0xFFFFFFFF →
    (∀ j, j < 1024 → u.readByte (u.operands.srcAddr.toNat + j) = t.readByte (s.operands.dstAddr.toNat + j)) →
    1024 ≤ u.operands.srcLen.toNat → earlyCode .loadFreq u = none →
    ∃ v, exec .loadFreq u = .next v ∧ v.freq = s.freq ∧ v.total.toNat = freqSum s.freq ∧ v.status.errcode = 0

/-! ### Huffman commands -/

/-- 42_huffman.md R200, R201, R202: BUILD_TREE makes the arena that the merging of the two least active nodes makes, by
the tie-break of R201, sets TREE_VALID and clears CODES_VALID; nothing else changes. FREQ sums within 32 bits, as
every command that writes it ensures (10_state.md R58). -/
def Obligations.BuildTreeMergesTheLeastPairs : Prop :=
  ∀ s : State, freqSum s.freq ≤ 0xFFFFFFFF →
    ∃ t : Arena, exec .buildTree s = .next { done s with
        arena := t, model := { s.model with treeValid := true, codesValid := false } }
      ∧ TreeOf s.freq t

/-- 42_huffman.md R203: the properties of a built tree: NODE_COUNT = 2k - 1; children come before their parent; every
weight is the sum of the children's; the root's weight is TOTAL; every entry is reached from ROOT exactly once; no leaf
is deeper than k - 1. -/
def Obligations.BuiltTreeIsStrictAndComplete : Prop :=
  ∀ s : State, Inv s → s.model.treeValid = true → s.model.distinct ≠ 0 →
    s.arena.count.toNat = 2 * s.model.distinct.toNat - 1
      ∧ (∀ n l r w, s.arena.nodeAt n = .internal l r w →
          l.toNat < n ∧ r.toNat < n ∧ w.toNat = weight s.arena l.toNat + weight s.arena r.toNat)
      ∧ weight s.arena s.arena.root.toNat = s.total.toNat
      ∧ (∀ n, n < s.arena.count.toNat → ∃! path : Bits, follow s.arena s.arena.root.toNat path = some n)
      ∧ ∀ (path : Bits) (n : Nat) (sym : Byte) (w : Word), follow s.arena s.arena.root.toNat path = some n →
          s.arena.nodeAt n = .leaf sym w → path.length ≤ s.model.distinct.toNat - 1

/-- 42_huffman.md R204: BUILD_CODES raises MODEL_NOT_BUILT without a tree; otherwise the code of a symbol is the path
from ROOT to its leaf, "0" for the only symbol of a single-leaf tree, and empty for an absent symbol; CODES_VALID is
set; nothing else changes. -/
def Obligations.BuildCodesTakesThePaths : Prop :=
  ∀ s : State,
    (s.model.treeValid = false → exec .buildCodes s = .next (failed 5 s))
      ∧ (Inv s → s.model.treeValid = true → ∃ c : Table Bits 256,
          exec .buildCodes s = .next { done s with code := c, model := { s.model with codesValid := true } }
            ∧ (∀ b : Byte, count s.freq b = 0 → c.get b.toNat [true] = [])
            ∧ (∀ sym w, s.arena.count.toNat = 1 → s.arena.nodeAt 0 = .leaf sym w → c.get sym.toNat [] = [false])
            ∧ ∀ (path : Bits) (n : Nat) (sym : Byte) (w : Word), 2 ≤ s.arena.count.toNat →
                follow s.arena s.arena.root.toNat path = some n → s.arena.nodeAt n = .leaf sym w →
                c.get sym.toNat [] = path)

/-- 42_huffman.md R205, 10_state.md R76: with CODES_VALID = 1 a symbol has a code exactly when FREQ[s] > 0, and no code
is a prefix of another. -/
def Obligations.CodesArePrefixFree : Prop :=
  ∀ s : State, Inv s → s.model.codesValid = true →
    (∀ b : Byte, s.codeAt b ≠ [] ↔ 0 < count s.freq b)
      ∧ ∀ b c : Byte, b ≠ c → s.codeAt b ≠ [] → s.codeAt c ≠ [] → ¬ s.codeAt b <+: s.codeAt c

/-- 10_state.md R76: what the invariant `Inv`, which every step keeps, says of the tables: TOTAL and DISTINCT are those of
FREQ; with TREE_VALID = 1 the arena is a strict binary tree whose leaves are the present symbols in ascending order and
whose root weighs TOTAL; with CODES_VALID = 1 the codes are those of the present symbols and prefix-free; with
PART_VALID = 1 the partition's intervals are the counts. -/
def Obligations.TablesMatchTheCounts : Prop :=
  ∀ s : State, Inv s →
    s.total.toNat = freqSum s.freq
      ∧ s.model.distinct.toNat = (present s.freq).length
      ∧ (s.model.treeValid = true →
          s.arena.count.toNat = 2 * (present s.freq).length - 1
            ∧ (∀ j, ∀ h : j < (present s.freq).length, ∃ w, s.arena.nodeAt j = .leaf ((present s.freq)[j]) w)
            ∧ (∀ n l r w, s.arena.nodeAt n = .internal l r w → l.toNat < n ∧ r.toNat < n ∧ l ≠ r)
            ∧ (∀ n, n < s.arena.count.toNat → ∃! path : Bits, follow s.arena s.arena.root.toNat path = some n)
            ∧ (0 < (present s.freq).length → weight s.arena s.arena.root.toNat = s.total.toNat))
      ∧ (s.model.codesValid = true →
          (∀ b : Byte, s.codeAt b ≠ [] ↔ 0 < count s.freq b)
            ∧ ∀ b c : Byte, b ≠ c → s.codeAt b ≠ [] → s.codeAt c ≠ [] → ¬ s.codeAt b <+: s.codeAt c)
      ∧ (s.model.partValid = true →
          (∀ b : Byte, cumAt s.cum (b.toNat + 1) = cumAt s.cum b.toNat + count s.freq b)
            ∧ cumAt s.cum 256 = s.total.toNat
            ∧ s.total.toNat ≤ 0x3FFFFFFF)

/-- 42_huffman.md R206: HUFF_ENC writes the codes of the body's bytes one after another, packed with zero padding, with
BIT_LEN, OUT_LEN and SYM_COUNT; MODEL_MISMATCH at a byte with no code, DST_OVERFLOW when the bits do not fit; every
other byte and register is unchanged. -/
def Obligations.HuffEncConcatenatesTheCodes : Prop :=
  ∀ s : State,
    (∀ c, earlyCode .huffEnc s = some c → exec .huffEnc s = .next (failed c s))
      ∧ (earlyCode .huffEnc s = none → (∃ b ∈ body s, s.codeAt b = []) →
          ∃ t, exec .huffEnc s = .next t ∧ failedLate 2 s t)
      ∧ (earlyCode .huffEnc s = none → (∀ b ∈ body s, s.codeAt b ≠ []) →
          (0xFFFFFFFF < ((body s).flatMap s.codeAt).length
            ∨ s.operands.dstCap.toNat < (((body s).flatMap s.codeAt).length + 7) / 8) →
          ∃ t, exec .huffEnc s = .next t ∧ failedLate 7 s t)
      ∧ (earlyCode .huffEnc s = none → (∀ b ∈ body s, s.codeAt b ≠ []) →
          ((body s).flatMap s.codeAt).length ≤ 0xFFFFFFFF →
          (((body s).flatMap s.codeAt).length + 7) / 8 ≤ s.operands.dstCap.toNat →
          ∃ t, exec .huffEnc s = .next t
            ∧ doneWith s t (BitVec.ofNat 32 ((((body s).flatMap s.codeAt).length + 7) / 8))
                (BitVec.ofNat 32 ((body s).flatMap s.codeAt).length) s.operands.srcLen
            ∧ holdsPacked t s.operands.dstAddr.toNat ((body s).flatMap s.codeAt)
            ∧ sameOutside s t s.operands.dstAddr.toNat ((((body s).flatMap s.codeAt).length + 7) / 8))

/-- 42_huffman.md R208: HUFF_DEC reads exactly BIT_LEN bits. With an empty tree any bit is MODEL_MISMATCH, with a
single leaf a 0 bit is its symbol and a 1 bit MODEL_MISMATCH, with a larger tree each path from ROOT to a leaf is the
leaf's symbol and a stream that ends inside a path is MODEL_MISMATCH; INVALID_INPUT for a source too short and
DST_OVERFLOW for a destination too small. -/
def Obligations.HuffDecFollowsTheTree : Prop :=
  ∀ s : State,
    (∀ c, earlyCode .huffDec s = some c → exec .huffDec s = .next (failed c s))
      ∧ (earlyCode .huffDec s = none → s.operands.srcLen.toNat < (s.operands.bitLen.toNat + 7) / 8 →
          exec .huffDec s = .next (failed 1 s))
      ∧ (earlyCode .huffDec s = none → (s.operands.bitLen.toNat + 7) / 8 ≤ s.operands.srcLen.toNat →
          (s.arena.count = 0 → 0 < s.operands.bitLen.toNat → ∃ t, exec .huffDec s = .next t ∧ failedLate 2 s t)
            ∧ (s.arena.count = 0 → s.operands.bitLen.toNat = 0 →
                ∃ t, exec .huffDec s = .next t ∧ doneWith s t 0 s.bitLen 0
                  ∧ ∀ a, t.readByte a = s.readByte a)
            ∧ (s.arena.count = 1 → true ∈ stream s s.operands.srcAddr.toNat s.operands.bitLen.toNat →
                ∃ t, exec .huffDec s = .next t ∧ failedLate 2 s t)
            ∧ (∀ sym w, s.arena.count = 1 → s.arena.nodeAt 0 = .leaf sym w →
                true ∉ stream s s.operands.srcAddr.toNat s.operands.bitLen.toNat →
                s.operands.bitLen.toNat ≤ s.operands.dstCap.toNat →
                ∃ t, exec .huffDec s = .next t ∧ doneWith s t s.operands.bitLen s.bitLen s.operands.bitLen
                  ∧ holds t s.operands.dstAddr.toNat (List.replicate s.operands.bitLen.toNat sym)
                  ∧ sameOutside s t s.operands.dstAddr.toNat s.operands.bitLen.toNat)
            ∧ (s.arena.count = 1 → true ∉ stream s s.operands.srcAddr.toNat s.operands.bitLen.toNat →
                s.operands.dstCap.toNat < s.operands.bitLen.toNat →
                ∃ t, exec .huffDec s = .next t ∧ failedLate 7 s t)
            ∧ (∀ (out : List Byte) (bits rest : Bits) (n : Nat) (l r : BitVec 9) (w : Word),
                2 ≤ s.arena.count.toNat → Spells s.arena out bits → rest ≠ [] →
                follow s.arena s.arena.root.toNat rest = some n → n ≠ s.arena.root.toNat →
                s.arena.nodeAt n = .internal l r w →
                stream s s.operands.srcAddr.toNat s.operands.bitLen.toNat = bits ++ rest →
                ∃ t, exec .huffDec s = .next t ∧ failedLate 2 s t)
            ∧ (∀ out : List Byte, 2 ≤ s.arena.count.toNat →
                Spells s.arena out (stream s s.operands.srcAddr.toNat s.operands.bitLen.toNat) →
                s.operands.dstCap.toNat < out.length → ∃ t, exec .huffDec s = .next t ∧ failedLate 7 s t)
            ∧ ∀ out : List Byte, 2 ≤ s.arena.count.toNat →
                Spells s.arena out (stream s s.operands.srcAddr.toNat s.operands.bitLen.toNat) →
                out.length ≤ s.operands.dstCap.toNat →
                ∃ t, exec .huffDec s = .next t
                  ∧ doneWith s t (BitVec.ofNat 32 out.length) s.bitLen (BitVec.ofNat 32 out.length)
                  ∧ holds t s.operands.dstAddr.toNat out
                  ∧ sameOutside s t s.operands.dstAddr.toNat out.length)

/-- 42_huffman.md R210: HUFF_DEC of what HUFF_ENC wrote, with the same tree and the BIT_LEN it wrote, writes the body.
`t` is the state after the encoding, `u` any state that holds the stream at its source range. -/
def Obligations.HuffmanRoundTrip : Prop :=
  ∀ s t u : State, Inv s → exec .huffEnc s = .next t → t.status.errcode = 0 →
    u.arena = s.arena → earlyCode .huffDec u = none →
    (∀ j, j < t.outLen.toNat →
      u.readByte (u.operands.srcAddr.toNat + j) = t.readByte (s.operands.dstAddr.toNat + j)) →
    u.operands.bitLen = t.bitLen → t.outLen.toNat ≤ u.operands.srcLen.toNat →
    s.operands.srcLen.toNat ≤ u.operands.dstCap.toNat →
    ∃ v, exec .huffDec u = .next v
      ∧ v.status.errcode = 0
      ∧ v.symCount = s.operands.srcLen
      ∧ v.outLen = s.operands.srcLen
      ∧ holds v u.operands.dstAddr.toNat (body s)

/-! ### Arithmetic coder -/

/-- 43_arith.md R230: BUILD_PART raises PRECISION_EXHAUSTION when the sum of FREQ exceeds 0x3FFF_FFFF; otherwise CUM[j]
is the sum of the first j counts and PART_VALID is set; nothing else changes. -/
def Obligations.BuildPartAccumulates : Prop :=
  ∀ s : State,
    (0x3FFFFFFF < freqSum s.freq → exec .buildPart s = .next (failed 3 s))
      ∧ (freqSum s.freq ≤ 0x3FFFFFFF → ∃ c : Table Word 257,
          exec .buildPart s = .next { done s with cum := c, model := { s.model with partValid := true } }
            ∧ ∀ j, j ≤ 256 → (c.get j 1).toNat = ((s.freq.entries.map BitVec.toNat).take j).sum)

/-- 43_arith.md R236: after Narrow, 0 <= low' <= high' <= TOP, inside the old interval, whenever r >= T. -/
def Obligations.NarrowStaysInside : Prop :=
  ∀ low high cl ch total : Nat, low ≤ high → high ≤ 2 ^ 32 - 1 → cl < ch → ch ≤ total → total ≤ high - low + 1 →
    low ≤ (narrow low high cl ch total).1
      ∧ (narrow low high cl ch total).1 ≤ (narrow low high cl ch total).2
      ∧ (narrow low high cl ch total).2 ≤ high

/-- 43_arith.md R233, R236, R238: on an interval inside [0, TOP] the encoder's renormalisation runs to the loop's exit,
stays in [0, TOP] and leaves high - low + 1 > QUARTER; the decoder's, on the same low and high and with a value inside
the interval, takes the same cases and keeps the value inside. -/
def Obligations.RenormalisationReachesItsExit : Prop :=
  (∀ e : Enc, e.low ≤ e.high → e.high ≤ 2 ^ 32 - 1 →
    EncLoop e (Enc.renorm renormPasses e)
      ∧ (Enc.renorm renormPasses e).low ≤ (Enc.renorm renormPasses e).high
      ∧ (Enc.renorm renormPasses e).high ≤ 2 ^ 32 - 1
      ∧ 2 ^ 30 < (Enc.renorm renormPasses e).high - (Enc.renorm renormPasses e).low + 1)
    ∧ ∀ (d : Dec) (e : Enc) (bits : Bits), d.low = e.low → d.high = e.high → d.low ≤ d.value → d.value ≤ d.high →
        d.high ≤ 2 ^ 32 - 1 →
        DecLoop bits d (Dec.renorm renormPasses bits d)
          ∧ (Dec.renorm renormPasses bits d).low = (Enc.renorm renormPasses e).low
          ∧ (Dec.renorm renormPasses bits d).high = (Enc.renorm renormPasses e).high
          ∧ (Dec.renorm renormPasses bits d).low ≤ (Dec.renorm renormPasses bits d).value
          ∧ (Dec.renorm renormPasses bits d).value ≤ (Dec.renorm renormPasses bits d).high

/-- 43_arith.md R235: ARITH_ENC writes the bits the coder's loops give, run to their exits and terminated by R234, packed
with zero padding, with BIT_LEN, OUT_LEN and SYM_COUNT; an empty body gives no bits; MODEL_MISMATCH at a byte whose
interval is empty; DST_OVERFLOW when the bits do not fit; every other byte and register is unchanged. -/
def Obligations.ArithEncEmitsTheCode : Prop :=
  ∀ s : State,
    (∀ c, earlyCode .arithEnc s = some c → exec .arithEnc s = .next (failed c s))
      ∧ (earlyCode .arithEnc s = none → body s = [] →
          ∃ t, exec .arithEnc s = .next t ∧ doneWith s t 0 0 0 ∧ ∀ a, t.readByte a = s.readByte a)
      ∧ (earlyCode .arithEnc s = none →
          (∃ b ∈ body s, cumAt s.cum (b.toNat + 1) = cumAt s.cum b.toNat) →
          ∃ t, exec .arithEnc s = .next t ∧ failedLate 2 s t)
      ∧ (Inv s → earlyCode .arithEnc s = none → body s ≠ [] →
          (∀ b ∈ body s, cumAt s.cum (b.toNat + 1) ≠ cumAt s.cum b.toNat) →
          ∃ e : Enc, EncBody s.cum ⟨0, 2 ^ 32 - 1, 0, []⟩ (body s) e
            ∧ ((0xFFFFFFFF < (terminated e).length
                  ∨ s.operands.dstCap.toNat < ((terminated e).length + 7) / 8) →
                ∃ t, exec .arithEnc s = .next t ∧ failedLate 7 s t)
            ∧ ((terminated e).length ≤ 0xFFFFFFFF →
                ((terminated e).length + 7) / 8 ≤ s.operands.dstCap.toNat →
                ∃ t, exec .arithEnc s = .next t
                  ∧ doneWith s t (BitVec.ofNat 32 (((terminated e).length + 7) / 8))
                      (BitVec.ofNat 32 (terminated e).length) s.operands.srcLen
                  ∧ holdsPacked t s.operands.dstAddr.toNat (terminated e)
                  ∧ sameOutside s t s.operands.dstAddr.toNat (((terminated e).length + 7) / 8)))

/-- 43_arith.md R237, R239: ARITH_DEC writes SYM_COUNT symbols, each the only one whose interval holds target, with
low <= value <= high before it, for any bits at all in the source range: with T > 0 it never raises MODEL_MISMATCH. With T = 0 it does, unless SYM_COUNT = 0, which
gives no output. INVALID_INPUT for a source too short, DST_OVERFLOW for a destination too small. -/
def Obligations.ArithDecAlwaysFindsItsSymbols : Prop :=
  ∀ s : State,
    (∀ c, earlyCode .arithDec s = some c → exec .arithDec s = .next (failed c s))
      ∧ (earlyCode .arithDec s = none → s.operands.srcLen.toNat < (s.operands.bitLen.toNat + 7) / 8 →
          exec .arithDec s = .next (failed 1 s))
      ∧ (earlyCode .arithDec s = none → (s.operands.bitLen.toNat + 7) / 8 ≤ s.operands.srcLen.toNat →
          (s.operands.symCount = 0 →
            ∃ t, exec .arithDec s = .next t ∧ doneWith s t 0 s.bitLen s.symCount
              ∧ ∀ a, t.readByte a = s.readByte a)
            ∧ (s.operands.symCount ≠ 0 → cumAt s.cum 256 = 0 →
                ∃ t, exec .arithDec s = .next t ∧ failedLate 2 s t)
            ∧ (Inv s → s.operands.symCount ≠ 0 → cumAt s.cum 256 ≠ 0 →
                s.operands.dstCap.toNat < s.operands.symCount.toNat →
                ∃ t, exec .arithDec s = .next t ∧ failedLate 7 s t)
            ∧ (Inv s → s.operands.symCount ≠ 0 → cumAt s.cum 256 ≠ 0 →
                s.operands.symCount.toNat ≤ s.operands.dstCap.toNat →
                ∃ (t : State) (out : List Byte), exec .arithDec s = .next t
                  ∧ out.length = s.operands.symCount.toNat
                  ∧ DecBody s.cum (stream s s.operands.srcAddr.toNat s.operands.bitLen.toNat)
                      (decStart (stream s s.operands.srcAddr.toNat s.operands.bitLen.toNat)) out
                  ∧ doneWith s t s.operands.symCount s.bitLen s.symCount
                  ∧ holds t s.operands.dstAddr.toNat out
                  ∧ sameOutside s t s.operands.dstAddr.toNat out.length))

/-- 43_arith.md R240: ARITH_DEC of what ARITH_ENC wrote, with the same partition and the BIT_LEN and SYM_COUNT it wrote,
writes the body. `t` is the state after the encoding, `u` any state that holds the stream at its source range. -/
def Obligations.ArithmeticRoundTrip : Prop :=
  ∀ s t u : State, Inv s → exec .arithEnc s = .next t → t.status.errcode = 0 →
    u.cum = s.cum → earlyCode .arithDec u = none →
    (∀ j, j < t.outLen.toNat →
      u.readByte (u.operands.srcAddr.toNat + j) = t.readByte (s.operands.dstAddr.toNat + j)) →
    u.operands.bitLen = t.bitLen → u.operands.symCount = s.operands.srcLen →
    t.outLen.toNat ≤ u.operands.srcLen.toNat → s.operands.srcLen.toNat ≤ u.operands.dstCap.toNat →
    ∃ v, exec .arithDec u = .next v
      ∧ v.status.errcode = 0
      ∧ v.outLen = s.operands.srcLen
      ∧ holds v u.operands.dstAddr.toNat (body s)

/-! ### Bit packer -/

/-- 44_bitpack.md R260: PACK raises INVALID_INPUT at a source byte that is not 0x00 or 0x01, DST_OVERFLOW when the packed
bytes do not fit; otherwise bit i of the stream it writes is source byte i, the padding bits are 0, BIT_LEN = SRC_LEN;
every other byte and register is unchanged. -/
def Obligations.PackWritesOneBitPerByte : Prop :=
  ∀ s : State,
    (∀ c, earlyCode .pack s = some c → exec .pack s = .next (failed c s))
      ∧ (earlyCode .pack s = none → (∃ b ∈ body s, 1 < b.toNat) → exec .pack s = .next (failed 1 s))
      ∧ (earlyCode .pack s = none → (∀ b ∈ body s, b.toNat ≤ 1) →
          s.operands.dstCap.toNat < (s.operands.srcLen.toNat + 7) / 8 →
          ∃ t, exec .pack s = .next t ∧ failedLate 7 s t)
      ∧ (earlyCode .pack s = none → (∀ b ∈ body s, b.toNat ≤ 1) →
          (s.operands.srcLen.toNat + 7) / 8 ≤ s.operands.dstCap.toNat →
          ∃ t, exec .pack s = .next t
            ∧ doneWith s t (BitVec.ofNat 32 ((s.operands.srcLen.toNat + 7) / 8)) s.operands.srcLen s.symCount
            ∧ holdsPacked t s.operands.dstAddr.toNat ((body s).map (fun b => decide (b.toNat = 1)))
            ∧ sameOutside s t s.operands.dstAddr.toNat ((s.operands.srcLen.toNat + 7) / 8))

/-- 44_bitpack.md R262: UNPACK raises INVALID_INPUT for a source too short, DST_OVERFLOW when BIT_LEN exceeds DST_CAP;
otherwise byte i it writes is bit i of the stream, OUT_LEN = BIT_LEN; every other byte and register is unchanged. -/
def Obligations.UnpackWritesOneBytePerBit : Prop :=
  ∀ s : State,
    (∀ c, earlyCode .unpack s = some c → exec .unpack s = .next (failed c s))
      ∧ (earlyCode .unpack s = none → s.operands.srcLen.toNat < (s.operands.bitLen.toNat + 7) / 8 →
          exec .unpack s = .next (failed 1 s))
      ∧ (earlyCode .unpack s = none → (s.operands.bitLen.toNat + 7) / 8 ≤ s.operands.srcLen.toNat →
          s.operands.dstCap.toNat < s.operands.bitLen.toNat →
          ∃ t, exec .unpack s = .next t ∧ failedLate 7 s t)
      ∧ (earlyCode .unpack s = none → (s.operands.bitLen.toNat + 7) / 8 ≤ s.operands.srcLen.toNat →
          s.operands.bitLen.toNat ≤ s.operands.dstCap.toNat →
          ∃ t, exec .unpack s = .next t
            ∧ doneWith s t s.operands.bitLen s.bitLen s.symCount
            ∧ (∀ i, i < s.operands.bitLen.toNat → t.readByte (s.operands.dstAddr.toNat + i)
                = if streamBit s s.operands.srcAddr.toNat i then 1 else 0)
            ∧ sameOutside s t s.operands.dstAddr.toNat s.operands.bitLen.toNat)

/-- 44_bitpack.md R263: UNPACK of what PACK wrote, with BIT_LEN as PACK wrote it, gives back the bit sequence; PACK of
what UNPACK wrote gives back the packed bytes with their padding bits cleared. `t` is the state after the first
command, `u` any state that holds its output at its source range. -/
def Obligations.PackAndUnpackRoundTrip : Prop :=
  (∀ s t u : State, exec .pack s = .next t → t.status.errcode = 0 → earlyCode .unpack u = none →
    (∀ j, j < t.outLen.toNat →
      u.readByte (u.operands.srcAddr.toNat + j) = t.readByte (s.operands.dstAddr.toNat + j)) →
    u.operands.bitLen = t.bitLen → t.outLen.toNat ≤ u.operands.srcLen.toNat →
    s.operands.srcLen.toNat ≤ u.operands.dstCap.toNat →
    ∃ v, exec .unpack u = .next v ∧ v.status.errcode = 0 ∧ v.outLen = s.operands.srcLen
      ∧ holds v u.operands.dstAddr.toNat (body s))
    ∧ ∀ s t u : State, exec .unpack s = .next t → t.status.errcode = 0 → earlyCode .pack u = none →
        (∀ j, j < t.outLen.toNat →
          u.readByte (u.operands.srcAddr.toNat + j) = t.readByte (s.operands.dstAddr.toNat + j)) →
        u.operands.srcLen = t.outLen → (t.outLen.toNat + 7) / 8 ≤ u.operands.dstCap.toNat →
        ∃ v, exec .pack u = .next v ∧ v.status.errcode = 0 ∧ v.bitLen = s.operands.bitLen
          ∧ holdsPacked v u.operands.dstAddr.toNat (stream s s.operands.srcAddr.toNat s.operands.bitLen.toNat)

/-- 20_memory.md R108: unpacking what was packed gives the bits back; packing what was unpacked gives the bytes back with
their padding bits cleared. -/
def Obligations.UnpackBitsUndoesPackBits : Prop :=
  (∀ (s : State) (a : Nat) (bits : Bits), (s.writeBytes a (packBits bits)).unpackBits a bits.length = bits)
    ∧ ∀ (s : State) (a n : Nat),
        (packBits (s.unpackBits a n)).length = (n + 7) / 8
          ∧ ∀ i, i < 8 * ((n + 7) / 8) →
              ((packBits (s.unpackBits a n)).getD (i / 8) 0).getLsbD (7 - i % 8)
                = (decide (i < n) && streamBit s a i)

/-- 44_bitpack.md R261: PACK of the bits an encoder produced, held one per byte at its source, writes the same bytes and
the same BIT_LEN as the encoder. -/
def Obligations.PackIsTheEncodersPacking : Prop :=
  ∀ (i : Instr) (s t u : State), (i = .huffEnc ∨ i = .arithEnc) → exec i s = .next t → t.status.errcode = 0 →
    earlyCode .pack u = none → u.operands.srcLen = t.bitLen →
    (∀ j, j < t.bitLen.toNat → u.readByte (u.operands.srcAddr.toNat + j)
      = if streamBit t s.operands.dstAddr.toNat j then 1 else 0) →
    t.outLen.toNat ≤ u.operands.dstCap.toNat →
    ∃ v, exec .pack u = .next v
      ∧ v.status.errcode = 0
      ∧ v.bitLen = t.bitLen
      ∧ v.outLen = t.outLen
      ∧ ∀ j, j < t.outLen.toNat →
          v.readByte (u.operands.dstAddr.toNat + j) = t.readByte (s.operands.dstAddr.toNat + j)
end

