-- ==== Sys2Proof/Laws/State.lean ====
section
/-! SUPPORT. One lemma per field per named update of State, each true by rfl, so that no proof unfolds an update. -/

namespace Sys2Proof.Laws

open Sys2Proof.Machine

section
variable (s : State)

@[simp] theorem complete_cmd (e : Option CmdError) : (s.complete e).cmd = s.cmd := rfl
@[simp] theorem complete_status (e : Option CmdError) : (s.complete e).status = s.status.completed e := rfl
@[simp] theorem complete_irqEn (e : Option CmdError) : (s.complete e).irqEn = s.irqEn := rfl
@[simp] theorem complete_sizeLimit (e : Option CmdError) : (s.complete e).sizeLimit = s.sizeLimit := rfl
@[simp] theorem complete_srcAddr (e : Option CmdError) : (s.complete e).srcAddr = s.srcAddr := rfl
@[simp] theorem complete_srcLen (e : Option CmdError) : (s.complete e).srcLen = s.srcLen := rfl
@[simp] theorem complete_dstAddr (e : Option CmdError) : (s.complete e).dstAddr = s.dstAddr := rfl
@[simp] theorem complete_dstCap (e : Option CmdError) : (s.complete e).dstCap = s.dstCap := rfl
@[simp] theorem complete_bitLen (e : Option CmdError) : (s.complete e).bitLen = s.bitLen := rfl
@[simp] theorem complete_symCount (e : Option CmdError) : (s.complete e).symCount = s.symCount := rfl
@[simp] theorem complete_outLen (e : Option CmdError) : (s.complete e).outLen = s.outLen := rfl
@[simp] theorem complete_model (e : Option CmdError) : (s.complete e).model = s.model := rfl
@[simp] theorem complete_total (e : Option CmdError) : (s.complete e).total = s.total := rfl
@[simp] theorem complete_freqIdx (e : Option CmdError) : (s.complete e).freqIdx = s.freqIdx := rfl
@[simp] theorem complete_nodeIdx (e : Option CmdError) : (s.complete e).nodeIdx = s.nodeIdx := rfl
@[simp] theorem complete_codeIdx (e : Option CmdError) : (s.complete e).codeIdx = s.codeIdx := rfl
@[simp] theorem complete_partIdx (e : Option CmdError) : (s.complete e).partIdx = s.partIdx := rfl
@[simp] theorem complete_freq (e : Option CmdError) : (s.complete e).freq = s.freq := rfl
@[simp] theorem complete_arena (e : Option CmdError) : (s.complete e).arena = s.arena := rfl
@[simp] theorem complete_code (e : Option CmdError) : (s.complete e).code = s.code := rfl
@[simp] theorem complete_cum (e : Option CmdError) : (s.complete e).cum = s.cum := rfl
@[simp] theorem complete_latched (e : Option CmdError) : (s.complete e).latched = none := rfl
@[simp] theorem complete_mem (e : Option CmdError) : (s.complete e).mem = s.mem := rfl
@[simp] theorem complete_memTop (e : Option CmdError) : (s.complete e).memTop = s.memTop := rfl
@[simp] theorem complete_resets (e : Option CmdError) : (s.complete e).resets = s.resets := rfl
@[simp] theorem complete_draws (e : Option CmdError) : (s.complete e).draws = s.draws := rfl
@[simp] theorem complete_host (e : Option CmdError) : (s.complete e).host = s.host := rfl
@[simp] theorem complete_hostTurns (e : Option CmdError) : (s.complete e).hostTurns = 0 := rfl
@[simp] theorem complete_latencies (e : Option CmdError) : (s.complete e).latencies = s.latencies := rfl
@[simp] theorem complete_replies (e : Option CmdError) : (s.complete e).replies = s.replies := rfl

@[simp] theorem scrambleDst_cmd (p : Operands) : (s.scrambleDst p).cmd = s.cmd := rfl
@[simp] theorem scrambleDst_status (p : Operands) : (s.scrambleDst p).status = s.status := rfl
@[simp] theorem scrambleDst_irqEn (p : Operands) : (s.scrambleDst p).irqEn = s.irqEn := rfl
@[simp] theorem scrambleDst_sizeLimit (p : Operands) : (s.scrambleDst p).sizeLimit = s.sizeLimit := rfl
@[simp] theorem scrambleDst_srcAddr (p : Operands) : (s.scrambleDst p).srcAddr = s.srcAddr := rfl
@[simp] theorem scrambleDst_srcLen (p : Operands) : (s.scrambleDst p).srcLen = s.srcLen := rfl
@[simp] theorem scrambleDst_dstAddr (p : Operands) : (s.scrambleDst p).dstAddr = s.dstAddr := rfl
@[simp] theorem scrambleDst_dstCap (p : Operands) : (s.scrambleDst p).dstCap = s.dstCap := rfl
@[simp] theorem scrambleDst_bitLen (p : Operands) : (s.scrambleDst p).bitLen = s.bitLen := rfl
@[simp] theorem scrambleDst_symCount (p : Operands) : (s.scrambleDst p).symCount = s.symCount := rfl
@[simp] theorem scrambleDst_outLen (p : Operands) : (s.scrambleDst p).outLen = s.outLen := rfl
@[simp] theorem scrambleDst_model (p : Operands) : (s.scrambleDst p).model = s.model := rfl
@[simp] theorem scrambleDst_total (p : Operands) : (s.scrambleDst p).total = s.total := rfl
@[simp] theorem scrambleDst_freqIdx (p : Operands) : (s.scrambleDst p).freqIdx = s.freqIdx := rfl
@[simp] theorem scrambleDst_nodeIdx (p : Operands) : (s.scrambleDst p).nodeIdx = s.nodeIdx := rfl
@[simp] theorem scrambleDst_codeIdx (p : Operands) : (s.scrambleDst p).codeIdx = s.codeIdx := rfl
@[simp] theorem scrambleDst_partIdx (p : Operands) : (s.scrambleDst p).partIdx = s.partIdx := rfl
@[simp] theorem scrambleDst_freq (p : Operands) : (s.scrambleDst p).freq = s.freq := rfl
@[simp] theorem scrambleDst_arena (p : Operands) : (s.scrambleDst p).arena = s.arena := rfl
@[simp] theorem scrambleDst_code (p : Operands) : (s.scrambleDst p).code = s.code := rfl
@[simp] theorem scrambleDst_cum (p : Operands) : (s.scrambleDst p).cum = s.cum := rfl
@[simp] theorem scrambleDst_latched (p : Operands) : (s.scrambleDst p).latched = s.latched := rfl
@[simp] theorem scrambleDst_mem (p : Operands) : (s.scrambleDst p).mem = Memory.writeBytes s.mem p.dstAddr.toNat (s.drawnBytes p.dstCap.toNat) := rfl
@[simp] theorem scrambleDst_memTop (p : Operands) : (s.scrambleDst p).memTop = s.memTop := rfl
@[simp] theorem scrambleDst_resets (p : Operands) : (s.scrambleDst p).resets = s.resets := rfl
@[simp] theorem scrambleDst_draws (p : Operands) : (s.scrambleDst p).draws = s.draws + p.dstCap.toNat := rfl
@[simp] theorem scrambleDst_host (p : Operands) : (s.scrambleDst p).host = s.host := rfl
@[simp] theorem scrambleDst_hostTurns (p : Operands) : (s.scrambleDst p).hostTurns = s.hostTurns := rfl
@[simp] theorem scrambleDst_latencies (p : Operands) : (s.scrambleDst p).latencies = s.latencies := rfl
@[simp] theorem scrambleDst_replies (p : Operands) : (s.scrambleDst p).replies = s.replies := rfl

@[simp] theorem issue_cmd (w : Word) : (s.issue w).cmd = w := rfl
@[simp] theorem issue_status (w : Word) : (s.issue w).status = s.status.issued := rfl
@[simp] theorem issue_irqEn (w : Word) : (s.issue w).irqEn = s.irqEn := rfl
@[simp] theorem issue_sizeLimit (w : Word) : (s.issue w).sizeLimit = s.sizeLimit := rfl
@[simp] theorem issue_srcAddr (w : Word) : (s.issue w).srcAddr = s.srcAddr := rfl
@[simp] theorem issue_srcLen (w : Word) : (s.issue w).srcLen = s.srcLen := rfl
@[simp] theorem issue_dstAddr (w : Word) : (s.issue w).dstAddr = s.dstAddr := rfl
@[simp] theorem issue_dstCap (w : Word) : (s.issue w).dstCap = s.dstCap := rfl
@[simp] theorem issue_bitLen (w : Word) : (s.issue w).bitLen = s.bitLen := rfl
@[simp] theorem issue_symCount (w : Word) : (s.issue w).symCount = s.symCount := rfl
@[simp] theorem issue_outLen (w : Word) : (s.issue w).outLen = s.outLen := rfl
@[simp] theorem issue_model (w : Word) : (s.issue w).model = s.model := rfl
@[simp] theorem issue_total (w : Word) : (s.issue w).total = s.total := rfl
@[simp] theorem issue_freqIdx (w : Word) : (s.issue w).freqIdx = s.freqIdx := rfl
@[simp] theorem issue_nodeIdx (w : Word) : (s.issue w).nodeIdx = s.nodeIdx := rfl
@[simp] theorem issue_codeIdx (w : Word) : (s.issue w).codeIdx = s.codeIdx := rfl
@[simp] theorem issue_partIdx (w : Word) : (s.issue w).partIdx = s.partIdx := rfl
@[simp] theorem issue_freq (w : Word) : (s.issue w).freq = s.freq := rfl
@[simp] theorem issue_arena (w : Word) : (s.issue w).arena = s.arena := rfl
@[simp] theorem issue_code (w : Word) : (s.issue w).code = s.code := rfl
@[simp] theorem issue_cum (w : Word) : (s.issue w).cum = s.cum := rfl
@[simp] theorem issue_latched (w : Word) : (s.issue w).latched = some s.liveOperands := rfl
@[simp] theorem issue_mem (w : Word) : (s.issue w).mem = s.mem := rfl
@[simp] theorem issue_memTop (w : Word) : (s.issue w).memTop = s.memTop := rfl
@[simp] theorem issue_resets (w : Word) : (s.issue w).resets = s.resets := rfl
@[simp] theorem issue_draws (w : Word) : (s.issue w).draws = s.draws := rfl
@[simp] theorem issue_host (w : Word) : (s.issue w).host = s.host := rfl
@[simp] theorem issue_hostTurns (w : Word) : (s.issue w).hostTurns = s.latencies.headD 0 := rfl
@[simp] theorem issue_latencies (w : Word) : (s.issue w).latencies = s.latencies.tail := rfl
@[simp] theorem issue_replies (w : Word) : (s.issue w).replies = s.replies := rfl

@[simp] theorem issueNow_cmd (w : Word) : (s.issueNow w).cmd = w := rfl
@[simp] theorem issueNow_status (w : Word) : (s.issueNow w).status = s.status.issued := rfl
@[simp] theorem issueNow_irqEn (w : Word) : (s.issueNow w).irqEn = s.irqEn := rfl
@[simp] theorem issueNow_sizeLimit (w : Word) : (s.issueNow w).sizeLimit = s.sizeLimit := rfl
@[simp] theorem issueNow_srcAddr (w : Word) : (s.issueNow w).srcAddr = s.srcAddr := rfl
@[simp] theorem issueNow_srcLen (w : Word) : (s.issueNow w).srcLen = s.srcLen := rfl
@[simp] theorem issueNow_dstAddr (w : Word) : (s.issueNow w).dstAddr = s.dstAddr := rfl
@[simp] theorem issueNow_dstCap (w : Word) : (s.issueNow w).dstCap = s.dstCap := rfl
@[simp] theorem issueNow_bitLen (w : Word) : (s.issueNow w).bitLen = s.bitLen := rfl
@[simp] theorem issueNow_symCount (w : Word) : (s.issueNow w).symCount = s.symCount := rfl
@[simp] theorem issueNow_outLen (w : Word) : (s.issueNow w).outLen = s.outLen := rfl
@[simp] theorem issueNow_model (w : Word) : (s.issueNow w).model = s.model := rfl
@[simp] theorem issueNow_total (w : Word) : (s.issueNow w).total = s.total := rfl
@[simp] theorem issueNow_freqIdx (w : Word) : (s.issueNow w).freqIdx = s.freqIdx := rfl
@[simp] theorem issueNow_nodeIdx (w : Word) : (s.issueNow w).nodeIdx = s.nodeIdx := rfl
@[simp] theorem issueNow_codeIdx (w : Word) : (s.issueNow w).codeIdx = s.codeIdx := rfl
@[simp] theorem issueNow_partIdx (w : Word) : (s.issueNow w).partIdx = s.partIdx := rfl
@[simp] theorem issueNow_freq (w : Word) : (s.issueNow w).freq = s.freq := rfl
@[simp] theorem issueNow_arena (w : Word) : (s.issueNow w).arena = s.arena := rfl
@[simp] theorem issueNow_code (w : Word) : (s.issueNow w).code = s.code := rfl
@[simp] theorem issueNow_cum (w : Word) : (s.issueNow w).cum = s.cum := rfl
@[simp] theorem issueNow_latched (w : Word) : (s.issueNow w).latched = some s.liveOperands := rfl
@[simp] theorem issueNow_mem (w : Word) : (s.issueNow w).mem = s.mem := rfl
@[simp] theorem issueNow_memTop (w : Word) : (s.issueNow w).memTop = s.memTop := rfl
@[simp] theorem issueNow_resets (w : Word) : (s.issueNow w).resets = s.resets := rfl
@[simp] theorem issueNow_draws (w : Word) : (s.issueNow w).draws = s.draws := rfl
@[simp] theorem issueNow_host (w : Word) : (s.issueNow w).host = s.host := rfl
@[simp] theorem issueNow_hostTurns (w : Word) : (s.issueNow w).hostTurns = 0 := rfl
@[simp] theorem issueNow_latencies (w : Word) : (s.issueNow w).latencies = s.latencies := rfl
@[simp] theorem issueNow_replies (w : Word) : (s.issueNow w).replies = s.replies := rfl

@[simp] theorem acknowledge_cmd (w : Word) : (s.acknowledge w).cmd = s.cmd := rfl
@[simp] theorem acknowledge_status (w : Word) : (s.acknowledge w).status = s.status.cleared w := rfl
@[simp] theorem acknowledge_irqEn (w : Word) : (s.acknowledge w).irqEn = s.irqEn := rfl
@[simp] theorem acknowledge_sizeLimit (w : Word) : (s.acknowledge w).sizeLimit = s.sizeLimit := rfl
@[simp] theorem acknowledge_srcAddr (w : Word) : (s.acknowledge w).srcAddr = s.srcAddr := rfl
@[simp] theorem acknowledge_srcLen (w : Word) : (s.acknowledge w).srcLen = s.srcLen := rfl
@[simp] theorem acknowledge_dstAddr (w : Word) : (s.acknowledge w).dstAddr = s.dstAddr := rfl
@[simp] theorem acknowledge_dstCap (w : Word) : (s.acknowledge w).dstCap = s.dstCap := rfl
@[simp] theorem acknowledge_bitLen (w : Word) : (s.acknowledge w).bitLen = s.bitLen := rfl
@[simp] theorem acknowledge_symCount (w : Word) : (s.acknowledge w).symCount = s.symCount := rfl
@[simp] theorem acknowledge_outLen (w : Word) : (s.acknowledge w).outLen = s.outLen := rfl
@[simp] theorem acknowledge_model (w : Word) : (s.acknowledge w).model = s.model := rfl
@[simp] theorem acknowledge_total (w : Word) : (s.acknowledge w).total = s.total := rfl
@[simp] theorem acknowledge_freqIdx (w : Word) : (s.acknowledge w).freqIdx = s.freqIdx := rfl
@[simp] theorem acknowledge_nodeIdx (w : Word) : (s.acknowledge w).nodeIdx = s.nodeIdx := rfl
@[simp] theorem acknowledge_codeIdx (w : Word) : (s.acknowledge w).codeIdx = s.codeIdx := rfl
@[simp] theorem acknowledge_partIdx (w : Word) : (s.acknowledge w).partIdx = s.partIdx := rfl
@[simp] theorem acknowledge_freq (w : Word) : (s.acknowledge w).freq = s.freq := rfl
@[simp] theorem acknowledge_arena (w : Word) : (s.acknowledge w).arena = s.arena := rfl
@[simp] theorem acknowledge_code (w : Word) : (s.acknowledge w).code = s.code := rfl
@[simp] theorem acknowledge_cum (w : Word) : (s.acknowledge w).cum = s.cum := rfl
@[simp] theorem acknowledge_latched (w : Word) : (s.acknowledge w).latched = s.latched := rfl
@[simp] theorem acknowledge_mem (w : Word) : (s.acknowledge w).mem = s.mem := rfl
@[simp] theorem acknowledge_memTop (w : Word) : (s.acknowledge w).memTop = s.memTop := rfl
@[simp] theorem acknowledge_resets (w : Word) : (s.acknowledge w).resets = s.resets := rfl
@[simp] theorem acknowledge_draws (w : Word) : (s.acknowledge w).draws = s.draws := rfl
@[simp] theorem acknowledge_host (w : Word) : (s.acknowledge w).host = s.host := rfl
@[simp] theorem acknowledge_hostTurns (w : Word) : (s.acknowledge w).hostTurns = s.hostTurns := rfl
@[simp] theorem acknowledge_latencies (w : Word) : (s.acknowledge w).latencies = s.latencies := rfl
@[simp] theorem acknowledge_replies (w : Word) : (s.acknowledge w).replies = s.replies := rfl

@[simp] theorem dropWrite_cmd : (s.dropWrite).cmd = s.cmd := rfl
@[simp] theorem dropWrite_status : (s.dropWrite).status = s.status.overrun := rfl
@[simp] theorem dropWrite_irqEn : (s.dropWrite).irqEn = s.irqEn := rfl
@[simp] theorem dropWrite_sizeLimit : (s.dropWrite).sizeLimit = s.sizeLimit := rfl
@[simp] theorem dropWrite_srcAddr : (s.dropWrite).srcAddr = s.srcAddr := rfl
@[simp] theorem dropWrite_srcLen : (s.dropWrite).srcLen = s.srcLen := rfl
@[simp] theorem dropWrite_dstAddr : (s.dropWrite).dstAddr = s.dstAddr := rfl
@[simp] theorem dropWrite_dstCap : (s.dropWrite).dstCap = s.dstCap := rfl
@[simp] theorem dropWrite_bitLen : (s.dropWrite).bitLen = s.bitLen := rfl
@[simp] theorem dropWrite_symCount : (s.dropWrite).symCount = s.symCount := rfl
@[simp] theorem dropWrite_outLen : (s.dropWrite).outLen = s.outLen := rfl
@[simp] theorem dropWrite_model : (s.dropWrite).model = s.model := rfl
@[simp] theorem dropWrite_total : (s.dropWrite).total = s.total := rfl
@[simp] theorem dropWrite_freqIdx : (s.dropWrite).freqIdx = s.freqIdx := rfl
@[simp] theorem dropWrite_nodeIdx : (s.dropWrite).nodeIdx = s.nodeIdx := rfl
@[simp] theorem dropWrite_codeIdx : (s.dropWrite).codeIdx = s.codeIdx := rfl
@[simp] theorem dropWrite_partIdx : (s.dropWrite).partIdx = s.partIdx := rfl
@[simp] theorem dropWrite_freq : (s.dropWrite).freq = s.freq := rfl
@[simp] theorem dropWrite_arena : (s.dropWrite).arena = s.arena := rfl
@[simp] theorem dropWrite_code : (s.dropWrite).code = s.code := rfl
@[simp] theorem dropWrite_cum : (s.dropWrite).cum = s.cum := rfl
@[simp] theorem dropWrite_latched : (s.dropWrite).latched = s.latched := rfl
@[simp] theorem dropWrite_mem : (s.dropWrite).mem = s.mem := rfl
@[simp] theorem dropWrite_memTop : (s.dropWrite).memTop = s.memTop := rfl
@[simp] theorem dropWrite_resets : (s.dropWrite).resets = s.resets := rfl
@[simp] theorem dropWrite_draws : (s.dropWrite).draws = s.draws := rfl
@[simp] theorem dropWrite_host : (s.dropWrite).host = s.host := rfl
@[simp] theorem dropWrite_hostTurns : (s.dropWrite).hostTurns = s.hostTurns := rfl
@[simp] theorem dropWrite_latencies : (s.dropWrite).latencies = s.latencies := rfl
@[simp] theorem dropWrite_replies : (s.dropWrite).replies = s.replies := rfl

@[simp] theorem writeByte_cmd (a : Nat) (v : Byte) : (s.writeByte a v).cmd = s.cmd := rfl
@[simp] theorem writeByte_status (a : Nat) (v : Byte) : (s.writeByte a v).status = s.status := rfl
@[simp] theorem writeByte_irqEn (a : Nat) (v : Byte) : (s.writeByte a v).irqEn = s.irqEn := rfl
@[simp] theorem writeByte_sizeLimit (a : Nat) (v : Byte) : (s.writeByte a v).sizeLimit = s.sizeLimit := rfl
@[simp] theorem writeByte_srcAddr (a : Nat) (v : Byte) : (s.writeByte a v).srcAddr = s.srcAddr := rfl
@[simp] theorem writeByte_srcLen (a : Nat) (v : Byte) : (s.writeByte a v).srcLen = s.srcLen := rfl
@[simp] theorem writeByte_dstAddr (a : Nat) (v : Byte) : (s.writeByte a v).dstAddr = s.dstAddr := rfl
@[simp] theorem writeByte_dstCap (a : Nat) (v : Byte) : (s.writeByte a v).dstCap = s.dstCap := rfl
@[simp] theorem writeByte_bitLen (a : Nat) (v : Byte) : (s.writeByte a v).bitLen = s.bitLen := rfl
@[simp] theorem writeByte_symCount (a : Nat) (v : Byte) : (s.writeByte a v).symCount = s.symCount := rfl
@[simp] theorem writeByte_outLen (a : Nat) (v : Byte) : (s.writeByte a v).outLen = s.outLen := rfl
@[simp] theorem writeByte_model (a : Nat) (v : Byte) : (s.writeByte a v).model = s.model := rfl
@[simp] theorem writeByte_total (a : Nat) (v : Byte) : (s.writeByte a v).total = s.total := rfl
@[simp] theorem writeByte_freqIdx (a : Nat) (v : Byte) : (s.writeByte a v).freqIdx = s.freqIdx := rfl
@[simp] theorem writeByte_nodeIdx (a : Nat) (v : Byte) : (s.writeByte a v).nodeIdx = s.nodeIdx := rfl
@[simp] theorem writeByte_codeIdx (a : Nat) (v : Byte) : (s.writeByte a v).codeIdx = s.codeIdx := rfl
@[simp] theorem writeByte_partIdx (a : Nat) (v : Byte) : (s.writeByte a v).partIdx = s.partIdx := rfl
@[simp] theorem writeByte_freq (a : Nat) (v : Byte) : (s.writeByte a v).freq = s.freq := rfl
@[simp] theorem writeByte_arena (a : Nat) (v : Byte) : (s.writeByte a v).arena = s.arena := rfl
@[simp] theorem writeByte_code (a : Nat) (v : Byte) : (s.writeByte a v).code = s.code := rfl
@[simp] theorem writeByte_cum (a : Nat) (v : Byte) : (s.writeByte a v).cum = s.cum := rfl
@[simp] theorem writeByte_latched (a : Nat) (v : Byte) : (s.writeByte a v).latched = s.latched := rfl
@[simp] theorem writeByte_mem (a : Nat) (v : Byte) : (s.writeByte a v).mem = Memory.write s.mem a v := rfl
@[simp] theorem writeByte_memTop (a : Nat) (v : Byte) : (s.writeByte a v).memTop = s.memTop := rfl
@[simp] theorem writeByte_resets (a : Nat) (v : Byte) : (s.writeByte a v).resets = s.resets := rfl
@[simp] theorem writeByte_draws (a : Nat) (v : Byte) : (s.writeByte a v).draws = s.draws := rfl
@[simp] theorem writeByte_host (a : Nat) (v : Byte) : (s.writeByte a v).host = s.host := rfl
@[simp] theorem writeByte_hostTurns (a : Nat) (v : Byte) : (s.writeByte a v).hostTurns = s.hostTurns := rfl
@[simp] theorem writeByte_latencies (a : Nat) (v : Byte) : (s.writeByte a v).latencies = s.latencies := rfl
@[simp] theorem writeByte_replies (a : Nat) (v : Byte) : (s.writeByte a v).replies = s.replies := rfl

@[simp] theorem writeBytes_cmd (a : Nat) (bs : List Byte) : (s.writeBytes a bs).cmd = s.cmd := rfl
@[simp] theorem writeBytes_status (a : Nat) (bs : List Byte) : (s.writeBytes a bs).status = s.status := rfl
@[simp] theorem writeBytes_irqEn (a : Nat) (bs : List Byte) : (s.writeBytes a bs).irqEn = s.irqEn := rfl
@[simp] theorem writeBytes_sizeLimit (a : Nat) (bs : List Byte) : (s.writeBytes a bs).sizeLimit = s.sizeLimit := rfl
@[simp] theorem writeBytes_srcAddr (a : Nat) (bs : List Byte) : (s.writeBytes a bs).srcAddr = s.srcAddr := rfl
@[simp] theorem writeBytes_srcLen (a : Nat) (bs : List Byte) : (s.writeBytes a bs).srcLen = s.srcLen := rfl
@[simp] theorem writeBytes_dstAddr (a : Nat) (bs : List Byte) : (s.writeBytes a bs).dstAddr = s.dstAddr := rfl
@[simp] theorem writeBytes_dstCap (a : Nat) (bs : List Byte) : (s.writeBytes a bs).dstCap = s.dstCap := rfl
@[simp] theorem writeBytes_bitLen (a : Nat) (bs : List Byte) : (s.writeBytes a bs).bitLen = s.bitLen := rfl
@[simp] theorem writeBytes_symCount (a : Nat) (bs : List Byte) : (s.writeBytes a bs).symCount = s.symCount := rfl
@[simp] theorem writeBytes_outLen (a : Nat) (bs : List Byte) : (s.writeBytes a bs).outLen = s.outLen := rfl
@[simp] theorem writeBytes_model (a : Nat) (bs : List Byte) : (s.writeBytes a bs).model = s.model := rfl
@[simp] theorem writeBytes_total (a : Nat) (bs : List Byte) : (s.writeBytes a bs).total = s.total := rfl
@[simp] theorem writeBytes_freqIdx (a : Nat) (bs : List Byte) : (s.writeBytes a bs).freqIdx = s.freqIdx := rfl
@[simp] theorem writeBytes_nodeIdx (a : Nat) (bs : List Byte) : (s.writeBytes a bs).nodeIdx = s.nodeIdx := rfl
@[simp] theorem writeBytes_codeIdx (a : Nat) (bs : List Byte) : (s.writeBytes a bs).codeIdx = s.codeIdx := rfl
@[simp] theorem writeBytes_partIdx (a : Nat) (bs : List Byte) : (s.writeBytes a bs).partIdx = s.partIdx := rfl
@[simp] theorem writeBytes_freq (a : Nat) (bs : List Byte) : (s.writeBytes a bs).freq = s.freq := rfl
@[simp] theorem writeBytes_arena (a : Nat) (bs : List Byte) : (s.writeBytes a bs).arena = s.arena := rfl
@[simp] theorem writeBytes_code (a : Nat) (bs : List Byte) : (s.writeBytes a bs).code = s.code := rfl
@[simp] theorem writeBytes_cum (a : Nat) (bs : List Byte) : (s.writeBytes a bs).cum = s.cum := rfl
@[simp] theorem writeBytes_latched (a : Nat) (bs : List Byte) : (s.writeBytes a bs).latched = s.latched := rfl
@[simp] theorem writeBytes_mem (a : Nat) (bs : List Byte) : (s.writeBytes a bs).mem = Memory.writeBytes s.mem a bs := rfl
@[simp] theorem writeBytes_memTop (a : Nat) (bs : List Byte) : (s.writeBytes a bs).memTop = s.memTop := rfl
@[simp] theorem writeBytes_resets (a : Nat) (bs : List Byte) : (s.writeBytes a bs).resets = s.resets := rfl
@[simp] theorem writeBytes_draws (a : Nat) (bs : List Byte) : (s.writeBytes a bs).draws = s.draws := rfl
@[simp] theorem writeBytes_host (a : Nat) (bs : List Byte) : (s.writeBytes a bs).host = s.host := rfl
@[simp] theorem writeBytes_hostTurns (a : Nat) (bs : List Byte) : (s.writeBytes a bs).hostTurns = s.hostTurns := rfl
@[simp] theorem writeBytes_latencies (a : Nat) (bs : List Byte) : (s.writeBytes a bs).latencies = s.latencies := rfl
@[simp] theorem writeBytes_replies (a : Nat) (bs : List Byte) : (s.writeBytes a bs).replies = s.replies := rfl

@[simp] theorem clearModel_cmd : (s.clearModel).cmd = s.cmd := rfl
@[simp] theorem clearModel_status : (s.clearModel).status = s.status := rfl
@[simp] theorem clearModel_irqEn : (s.clearModel).irqEn = s.irqEn := rfl
@[simp] theorem clearModel_sizeLimit : (s.clearModel).sizeLimit = s.sizeLimit := rfl
@[simp] theorem clearModel_srcAddr : (s.clearModel).srcAddr = s.srcAddr := rfl
@[simp] theorem clearModel_srcLen : (s.clearModel).srcLen = s.srcLen := rfl
@[simp] theorem clearModel_dstAddr : (s.clearModel).dstAddr = s.dstAddr := rfl
@[simp] theorem clearModel_dstCap : (s.clearModel).dstCap = s.dstCap := rfl
@[simp] theorem clearModel_bitLen : (s.clearModel).bitLen = s.bitLen := rfl
@[simp] theorem clearModel_symCount : (s.clearModel).symCount = s.symCount := rfl
@[simp] theorem clearModel_outLen : (s.clearModel).outLen = s.outLen := rfl
@[simp] theorem clearModel_model : (s.clearModel).model = s.model.staled 0 := rfl
@[simp] theorem clearModel_total : (s.clearModel).total = 0 := rfl
@[simp] theorem clearModel_freqIdx : (s.clearModel).freqIdx = s.freqIdx := rfl
@[simp] theorem clearModel_nodeIdx : (s.clearModel).nodeIdx = s.nodeIdx := rfl
@[simp] theorem clearModel_codeIdx : (s.clearModel).codeIdx = s.codeIdx := rfl
@[simp] theorem clearModel_partIdx : (s.clearModel).partIdx = s.partIdx := rfl
@[simp] theorem clearModel_freq : (s.clearModel).freq = Table.replicate 256 0 := rfl
@[simp] theorem clearModel_arena : (s.clearModel).arena = Arena.empty := rfl
@[simp] theorem clearModel_code : (s.clearModel).code = Table.replicate 256 [] := rfl
@[simp] theorem clearModel_cum : (s.clearModel).cum = Table.replicate 257 0 := rfl
@[simp] theorem clearModel_latched : (s.clearModel).latched = s.latched := rfl
@[simp] theorem clearModel_mem : (s.clearModel).mem = s.mem := rfl
@[simp] theorem clearModel_memTop : (s.clearModel).memTop = s.memTop := rfl
@[simp] theorem clearModel_resets : (s.clearModel).resets = s.resets := rfl
@[simp] theorem clearModel_draws : (s.clearModel).draws = s.draws := rfl
@[simp] theorem clearModel_host : (s.clearModel).host = s.host := rfl
@[simp] theorem clearModel_hostTurns : (s.clearModel).hostTurns = s.hostTurns := rfl
@[simp] theorem clearModel_latencies : (s.clearModel).latencies = s.latencies := rfl
@[simp] theorem clearModel_replies : (s.clearModel).replies = s.replies := rfl

@[simp] theorem commitFreq_cmd (f : Table Nat 256) : (s.commitFreq f).cmd = s.cmd := rfl
@[simp] theorem commitFreq_status (f : Table Nat 256) : (s.commitFreq f).status = s.status := rfl
@[simp] theorem commitFreq_irqEn (f : Table Nat 256) : (s.commitFreq f).irqEn = s.irqEn := rfl
@[simp] theorem commitFreq_sizeLimit (f : Table Nat 256) : (s.commitFreq f).sizeLimit = s.sizeLimit := rfl
@[simp] theorem commitFreq_srcAddr (f : Table Nat 256) : (s.commitFreq f).srcAddr = s.srcAddr := rfl
@[simp] theorem commitFreq_srcLen (f : Table Nat 256) : (s.commitFreq f).srcLen = s.srcLen := rfl
@[simp] theorem commitFreq_dstAddr (f : Table Nat 256) : (s.commitFreq f).dstAddr = s.dstAddr := rfl
@[simp] theorem commitFreq_dstCap (f : Table Nat 256) : (s.commitFreq f).dstCap = s.dstCap := rfl
@[simp] theorem commitFreq_bitLen (f : Table Nat 256) : (s.commitFreq f).bitLen = s.bitLen := rfl
@[simp] theorem commitFreq_symCount (f : Table Nat 256) : (s.commitFreq f).symCount = s.symCount := rfl
@[simp] theorem commitFreq_outLen (f : Table Nat 256) : (s.commitFreq f).outLen = s.outLen := rfl
@[simp] theorem commitFreq_model (f : Table Nat 256) : (s.commitFreq f).model = s.model.staled (countDistinct f) := rfl
@[simp] theorem commitFreq_total (f : Table Nat 256) : (s.commitFreq f).total = BitVec.ofNat 32 (countSum f) := rfl
@[simp] theorem commitFreq_freqIdx (f : Table Nat 256) : (s.commitFreq f).freqIdx = s.freqIdx := rfl
@[simp] theorem commitFreq_nodeIdx (f : Table Nat 256) : (s.commitFreq f).nodeIdx = s.nodeIdx := rfl
@[simp] theorem commitFreq_codeIdx (f : Table Nat 256) : (s.commitFreq f).codeIdx = s.codeIdx := rfl
@[simp] theorem commitFreq_partIdx (f : Table Nat 256) : (s.commitFreq f).partIdx = s.partIdx := rfl
@[simp] theorem commitFreq_freq (f : Table Nat 256) : (s.commitFreq f).freq = f.map (BitVec.ofNat 32) := rfl
@[simp] theorem commitFreq_arena (f : Table Nat 256) : (s.commitFreq f).arena = s.arena := rfl
@[simp] theorem commitFreq_code (f : Table Nat 256) : (s.commitFreq f).code = s.code := rfl
@[simp] theorem commitFreq_cum (f : Table Nat 256) : (s.commitFreq f).cum = s.cum := rfl
@[simp] theorem commitFreq_latched (f : Table Nat 256) : (s.commitFreq f).latched = s.latched := rfl
@[simp] theorem commitFreq_mem (f : Table Nat 256) : (s.commitFreq f).mem = s.mem := rfl
@[simp] theorem commitFreq_memTop (f : Table Nat 256) : (s.commitFreq f).memTop = s.memTop := rfl
@[simp] theorem commitFreq_resets (f : Table Nat 256) : (s.commitFreq f).resets = s.resets := rfl
@[simp] theorem commitFreq_draws (f : Table Nat 256) : (s.commitFreq f).draws = s.draws := rfl
@[simp] theorem commitFreq_host (f : Table Nat 256) : (s.commitFreq f).host = s.host := rfl
@[simp] theorem commitFreq_hostTurns (f : Table Nat 256) : (s.commitFreq f).hostTurns = s.hostTurns := rfl
@[simp] theorem commitFreq_latencies (f : Table Nat 256) : (s.commitFreq f).latencies = s.latencies := rfl
@[simp] theorem commitFreq_replies (f : Table Nat 256) : (s.commitFreq f).replies = s.replies := rfl

@[simp] theorem afterRegRead_cmd (off : Nat) : (s.afterRegRead off).cmd = s.cmd := rfl
@[simp] theorem afterRegRead_status (off : Nat) : (s.afterRegRead off).status = s.status := rfl
@[simp] theorem afterRegRead_irqEn (off : Nat) : (s.afterRegRead off).irqEn = s.irqEn := rfl
@[simp] theorem afterRegRead_sizeLimit (off : Nat) : (s.afterRegRead off).sizeLimit = s.sizeLimit := rfl
@[simp] theorem afterRegRead_srcAddr (off : Nat) : (s.afterRegRead off).srcAddr = s.srcAddr := rfl
@[simp] theorem afterRegRead_srcLen (off : Nat) : (s.afterRegRead off).srcLen = s.srcLen := rfl
@[simp] theorem afterRegRead_dstAddr (off : Nat) : (s.afterRegRead off).dstAddr = s.dstAddr := rfl
@[simp] theorem afterRegRead_dstCap (off : Nat) : (s.afterRegRead off).dstCap = s.dstCap := rfl
@[simp] theorem afterRegRead_bitLen (off : Nat) : (s.afterRegRead off).bitLen = s.bitLen := rfl
@[simp] theorem afterRegRead_symCount (off : Nat) : (s.afterRegRead off).symCount = s.symCount := rfl
@[simp] theorem afterRegRead_outLen (off : Nat) : (s.afterRegRead off).outLen = s.outLen := rfl
@[simp] theorem afterRegRead_model (off : Nat) : (s.afterRegRead off).model = s.model := rfl
@[simp] theorem afterRegRead_total (off : Nat) : (s.afterRegRead off).total = s.total := rfl
@[simp] theorem afterRegRead_freqIdx (off : Nat) : (s.afterRegRead off).freqIdx = s.freqIdx := rfl
@[simp] theorem afterRegRead_nodeIdx (off : Nat) : (s.afterRegRead off).nodeIdx = s.nodeIdx := rfl
@[simp] theorem afterRegRead_codeIdx (off : Nat) : (s.afterRegRead off).codeIdx = s.codeIdx := rfl
@[simp] theorem afterRegRead_partIdx (off : Nat) : (s.afterRegRead off).partIdx = s.partIdx := rfl
@[simp] theorem afterRegRead_freq (off : Nat) : (s.afterRegRead off).freq = s.freq := rfl
@[simp] theorem afterRegRead_arena (off : Nat) : (s.afterRegRead off).arena = s.arena := rfl
@[simp] theorem afterRegRead_code (off : Nat) : (s.afterRegRead off).code = s.code := rfl
@[simp] theorem afterRegRead_cum (off : Nat) : (s.afterRegRead off).cum = s.cum := rfl
@[simp] theorem afterRegRead_latched (off : Nat) : (s.afterRegRead off).latched = s.latched := rfl
@[simp] theorem afterRegRead_mem (off : Nat) : (s.afterRegRead off).mem = s.mem := rfl
@[simp] theorem afterRegRead_memTop (off : Nat) : (s.afterRegRead off).memTop = s.memTop := rfl
@[simp] theorem afterRegRead_resets (off : Nat) : (s.afterRegRead off).resets = s.resets := rfl
@[simp] theorem afterRegRead_draws (off : Nat) : (s.afterRegRead off).draws = s.draws + s.readDraws (registerAt off) := rfl
@[simp] theorem afterRegRead_host (off : Nat) : (s.afterRegRead off).host = s.host := rfl
@[simp] theorem afterRegRead_hostTurns (off : Nat) : (s.afterRegRead off).hostTurns = s.hostTurns := rfl
@[simp] theorem afterRegRead_latencies (off : Nat) : (s.afterRegRead off).latencies = s.latencies := rfl
@[simp] theorem afterRegRead_replies (off : Nat) : (s.afterRegRead off).replies = .reg off (s.readSlot (registerAt off)) :: s.replies := rfl

end

section
variable (top : Word)

@[simp] theorem resetAt_cmd : (State.resetAt top).cmd = 0 := rfl
@[simp] theorem resetAt_status : (State.resetAt top).status = ⟨false, false, false, 0, false⟩ := rfl
@[simp] theorem resetAt_irqEn : (State.resetAt top).irqEn = false := rfl
@[simp] theorem resetAt_sizeLimit : (State.resetAt top).sizeLimit = 0 := rfl
@[simp] theorem resetAt_srcAddr : (State.resetAt top).srcAddr = 0 := rfl
@[simp] theorem resetAt_srcLen : (State.resetAt top).srcLen = 0 := rfl
@[simp] theorem resetAt_dstAddr : (State.resetAt top).dstAddr = 0 := rfl
@[simp] theorem resetAt_dstCap : (State.resetAt top).dstCap = 0 := rfl
@[simp] theorem resetAt_bitLen : (State.resetAt top).bitLen = 0 := rfl
@[simp] theorem resetAt_symCount : (State.resetAt top).symCount = 0 := rfl
@[simp] theorem resetAt_outLen : (State.resetAt top).outLen = 0 := rfl
@[simp] theorem resetAt_model : (State.resetAt top).model = ⟨false, false, false, 0⟩ := rfl
@[simp] theorem resetAt_total : (State.resetAt top).total = 0 := rfl
@[simp] theorem resetAt_freqIdx : (State.resetAt top).freqIdx = 0 := rfl
@[simp] theorem resetAt_nodeIdx : (State.resetAt top).nodeIdx = 0 := rfl
@[simp] theorem resetAt_codeIdx : (State.resetAt top).codeIdx = 0 := rfl
@[simp] theorem resetAt_partIdx : (State.resetAt top).partIdx = 0 := rfl
@[simp] theorem resetAt_freq : (State.resetAt top).freq = Table.replicate 256 0 := rfl
@[simp] theorem resetAt_arena : (State.resetAt top).arena = Arena.empty := rfl
@[simp] theorem resetAt_code : (State.resetAt top).code = Table.replicate 256 [] := rfl
@[simp] theorem resetAt_cum : (State.resetAt top).cum = Table.replicate 257 0 := rfl
@[simp] theorem resetAt_latched : (State.resetAt top).latched = none := rfl
@[simp] theorem resetAt_mem : (State.resetAt top).mem = [] := rfl
@[simp] theorem resetAt_memTop : (State.resetAt top).memTop = top := rfl
@[simp] theorem resetAt_resets : (State.resetAt top).resets = 0 := rfl
@[simp] theorem resetAt_draws : (State.resetAt top).draws = 0 := rfl
@[simp] theorem resetAt_host : (State.resetAt top).host = [] := rfl
@[simp] theorem resetAt_hostTurns : (State.resetAt top).hostTurns = 0 := rfl
@[simp] theorem resetAt_latencies : (State.resetAt top).latencies = [] := rfl
@[simp] theorem resetAt_replies : (State.resetAt top).replies = [] := rfl

end

end Sys2Proof.Laws
end

