-- ==== Sys2Proof/Laws/Memory.lean ====
section
/-! SUPPORT. The laws of the buffer memory: read after write, every other byte unchanged, and the canonical form kept
by every write. And the laws of tables. -/

namespace Sys2Proof.Laws

open Sys2Proof.Machine

theorem table_get_replicate {α : Type} (n i : Nat) (v : α) : (Table.replicate n v).get i v = v := by
  simp [Table.get, Table.replicate, List.getD, List.getElem?_replicate]
  split <;> rfl

theorem table_get_replicate_of_lt {α : Type} {n i : Nat} (v d : α) (h : i < n) : (Table.replicate n v).get i d = v := by
  simp only [Table.get, Table.replicate, List.getD, List.getElem?_replicate, if_pos h, Option.getD_some]

theorem table_get_tabulate {α : Type} {n i : Nat} (f : Nat → α) (d : α) (h : i < n) :
    (Table.tabulate n f).get i d = f i := by
  simp [Table.get, Table.tabulate, List.getD, h]

theorem table_get_tabulate_past {α : Type} {n i : Nat} (f : Nat → α) (d : α) (h : n ≤ i) :
    (Table.tabulate n f).get i d = d := by
  have hn : ¬ i < n := by omega
  simp [Table.get, Table.tabulate, List.getD, hn]

theorem table_get_past {α : Type} {n i : Nat} (t : Table α n) (d : α) (h : n ≤ i) : t.get i d = d := by
  have hl := t.size_eq
  simp [Table.get, List.getD, List.getElem?_eq_none (by omega : t.entries.length ≤ i)]

theorem table_get_map {α β : Type} {n i : Nat} (f : α → β) (t : Table α n) (d : α) (e : β) (h : i < n) :
    (t.map f).get i e = f (t.get i d) := by
  have hl : i < t.entries.length := by rw [t.size_eq]; exact h
  simp [Table.get, Table.map, List.getD, List.getElem?_eq_getElem hl]

theorem table_get_set {α : Type} {n i j : Nat} (t : Table α n) (v d : α) (h : i < n) :
    (t.set i v).get j d = if j = i then v else t.get j d := by
  have hl : i < t.entries.length := by rw [t.size_eq]; exact h
  by_cases hji : j = i
  · subst hji
    simp [Table.get, Table.set, List.getD, hl]
  · simp [Table.get, Table.set, List.getD, List.getElem?_set_ne (Ne.symm hji), hji]

/-- Two tables with equal entries at every index are equal. -/
theorem table_ext {α : Type} {n : Nat} (d : α) {t u : Table α n} (h : ∀ i, i < n → t.get i d = u.get i d) : t = u := by
  obtain ⟨te, ht⟩ := t
  obtain ⟨ue, hu⟩ := u
  suffices te = ue by subst this; rfl
  apply List.ext_getElem (by omega)
  intro i h1 h2
  have := h i (by omega)
  simpa [Table.get, List.getD, List.getElem?_eq_getElem h1, List.getElem?_eq_getElem h2] using this

/-- A read after a write: the byte written, and every other byte as before. -/
theorem lookup_write (m : List Host.Cell) (a b : Nat) (v : Byte) :
    Memory.lookup (Memory.write m a v) b = if b = a then some v else Memory.lookup m b := by
  induction m with
  | nil =>
    by_cases h : b = a
    · simp [Memory.write, Memory.lookup, h]
    · simp [Memory.write, Memory.lookup, h, Ne.symm h]
  | cons c rest ih =>
    obtain ⟨k, w⟩ := c
    simp only [Memory.write]
    split
    · by_cases h : b = a
      · simp [Memory.lookup, h]
      · simp [Memory.lookup, h, Ne.symm h]
    · split
      · rename_i h1 h2
        subst h2
        by_cases h : b = a
        · simp [Memory.lookup, h]
        · simp [Memory.lookup, h, Ne.symm h]
      · rename_i h1 h2
        simp only [Memory.lookup]
        by_cases hk : k = b
        · have : b ≠ a := by omega
          simp [hk, this]
        · simp [hk, ih]

/-- A read after a string of bytes is written. -/
theorem lookup_writeBytes (m : List Host.Cell) (a b : Nat) (bs : List Byte) :
    Memory.lookup (Memory.writeBytes m a bs) b
      = if a ≤ b ∧ b < a + bs.length then bs[b - a]? else Memory.lookup m b := by
  induction bs generalizing m a with
  | nil =>
    have : ¬ (a ≤ b ∧ b < a + ([] : List Byte).length) := by simp
    rw [if_neg this]; rfl
  | cons x rest ih =>
    rw [Memory.writeBytes, ih, lookup_write]
    simp only [List.length_cons]
    by_cases h0 : b = a
    · subst h0
      simp
    · by_cases h1 : a + 1 ≤ b ∧ b < a + 1 + rest.length
      · have h2 : a ≤ b ∧ b < a + (rest.length + 1) := by omega
        rw [if_pos h1, if_pos h2]
        have h3 : b - a = (b - (a + 1)) + 1 := by omega
        rw [h3, List.getElem?_cons_succ]
      · have h2 : ¬ (a ≤ b ∧ b < a + (rest.length + 1)) := by omega
        rw [if_neg h1, if_neg h2, if_neg h0]

theorem risesFrom_weaken {a b : Nat} {m : List Host.Cell} (hab : a ≤ b) (h : Memory.risesFrom b m = true) :
    Memory.risesFrom a m = true := by
  cases m with
  | nil => rfl
  | cons c rest =>
    simp only [Memory.risesFrom, Bool.and_eq_true, decide_eq_true_eq] at h ⊢
    exact ⟨by omega, h.2⟩

theorem risesFrom_write {a k : Nat} (v : Byte) {m : List Host.Cell} (hka : k < a) (h : Memory.risesFrom k m = true) :
    Memory.risesFrom k (Memory.write m a v) = true := by
  induction m generalizing k with
  | nil => simp [Memory.write, Memory.risesFrom, hka]
  | cons c rest ih =>
    obtain ⟨b, w⟩ := c
    simp only [Memory.risesFrom, Bool.and_eq_true, decide_eq_true_eq] at h
    simp only [Memory.write]
    split
    · rename_i hab
      simp [Memory.risesFrom, hka, hab, h.2]
    · split
      · rename_i _ hab
        subst hab
        simp [Memory.risesFrom, hka, h.2]
      · simp only [Memory.risesFrom, Bool.and_eq_true, decide_eq_true_eq]
        exact ⟨h.1, ih (by omega) h.2⟩

theorem rises_write (a : Nat) (v : Byte) {m : List Host.Cell} (h : Memory.rises m = true) :
    Memory.rises (Memory.write m a v) = true := by
  cases m with
  | nil => rfl
  | cons c rest =>
    obtain ⟨b, w⟩ := c
    simp only [Memory.rises] at h
    simp only [Memory.write]
    split
    · rename_i hab
      simp [Memory.rises, Memory.risesFrom, hab, h]
    · split
      · rename_i _ hab
        subst hab
        exact h
      · exact risesFrom_write v (by omega) h

/-- Every entry is distinct from what an unlisted address holds, since that is no value. -/
theorem all_listed (m : List Host.Cell) : m.all (fun c => some c.2 != Memory.unlisted) = true := by
  simp [Memory.unlisted]

theorem wf_iff_rises (m : List Host.Cell) : Memory.wf m = Memory.rises m := by
  rw [Memory.wf, all_listed, Bool.and_true]

/-- A byte write keeps the canonical form. -/
theorem wf_write (a : Nat) (v : Byte) {m : List Host.Cell} (h : Memory.wf m = true) :
    Memory.wf (Memory.write m a v) = true := by
  rw [wf_iff_rises] at *
  exact rises_write a v h

/-- A write of a byte string keeps the canonical form. -/
theorem wf_writeBytes (a : Nat) (bs : List Byte) {m : List Host.Cell} (h : Memory.wf m = true) :
    Memory.wf (Memory.writeBytes m a bs) = true := by
  induction bs generalizing m a with
  | nil => exact h
  | cons x rest ih => exact ih (a + 1) (wf_write a x h)

/-- The addresses listed after a byte write. -/
theorem mem_write {c : Host.Cell} {a : Nat} {v : Byte} {m : List Host.Cell} (h : c ∈ Memory.write m a v) :
    c = (a, v) ∨ c ∈ m := by
  induction m with
  | nil =>
    left
    simpa [Memory.write] using h
  | cons d rest ih =>
    obtain ⟨b, w⟩ := d
    simp only [Memory.write] at h
    split at h
    · rcases List.mem_cons.mp h with h | h
      · exact Or.inl h
      · exact Or.inr h
    · split at h
      · rcases List.mem_cons.mp h with h | h
        · exact Or.inl h
        · exact Or.inr (List.mem_cons_of_mem _ h)
      · rcases List.mem_cons.mp h with h | h
        · exact Or.inr (h ▸ List.mem_cons_self)
        · rcases ih h with h | h
          · exact Or.inl h
          · exact Or.inr (List.mem_cons_of_mem _ h)

/-- The addresses listed after a byte string is written: inside its range, or listed before. -/
theorem mem_writeBytes {c : Host.Cell} {a : Nat} {bs : List Byte} {m : List Host.Cell}
    (h : c ∈ Memory.writeBytes m a bs) : (a ≤ c.1 ∧ c.1 < a + bs.length) ∨ c ∈ m := by
  induction bs generalizing m a with
  | nil => exact Or.inr h
  | cons x rest ih =>
    rcases ih (m := Memory.write m a x) (a := a + 1) h with h | h
    · left
      simp only [List.length_cons]
      omega
    · rcases mem_write h with h | h
      · left
        subst h
        simp only [List.length_cons]
        omega
      · exact Or.inr h

/-- A byte outside the range of a written string reads as before. -/
theorem readByte_writeBytes_outside (s : State) (a b : Nat) (bs : List Byte) (h : ¬ (a ≤ b ∧ b < a + bs.length)) :
    (s.writeBytes a bs).readByte b = s.readByte b := by
  simp only [State.readByte, writeBytes_mem, writeBytes_resets, lookup_writeBytes, if_neg h]

/-- A byte inside the range of a written string reads as written. -/
theorem readByte_writeBytes_inside (s : State) (a i : Nat) (bs : List Byte) (h : i < bs.length) :
    (s.writeBytes a bs).readByte (a + i) = bs[i] := by
  have hr : a ≤ a + i ∧ a + i < a + bs.length := by omega
  have hi : a + i - a = i := by omega
  simp only [State.readByte, writeBytes_mem, lookup_writeBytes, if_pos hr, hi,
    List.getElem?_eq_getElem h]

/-- Memory reads depend on nothing but the listed bytes and the drawing of MEM. -/
theorem readByte_congr {s t : State} (hm : t.mem = s.mem) (hr : t.resets = s.resets) (a : Nat) :
    t.readByte a = s.readByte a := by
  simp only [State.readByte, hm, hr]

theorem readBytes_length (s : State) (a n : Nat) : (s.readBytes a n).length = n := by
  simp [State.readBytes]

/-- MemRead after MemWrite of the same range gives the bytes written. -/
theorem readBytes_writeBytes (s : State) (a : Nat) (bs : List Byte) :
    (s.writeBytes a bs).readBytes a bs.length = bs := by
  apply List.ext_getElem
  · simp [State.readBytes]
  · intro i h1 h2
    simp only [State.readBytes, List.getElem_map, List.getElem_range]
    exact readByte_writeBytes_inside s a i bs h2

end Sys2Proof.Laws
end

