-- ==== Sys2Proof/Laws/Bits.lean ====
section
/-! SUPPORT. The laws of bit order and byte order: what the bits of packed bytes are, what is read back after a packed
string is stored, and little-endian words. -/

namespace Sys2Proof.Laws

open Sys2Proof Sys2Proof.Machine

/-- A byte given by eight bits, the first the most significant. -/
theorem byteOfBits_getLsbD (f : Nat → Bool) (k : Nat) (h : k < 8) :
    (BitVec.ofNat 8 (((List.range 8).map (fun j => bitVal (f j) * 2 ^ (7 - j))).sum)).getLsbD (7 - k) = f k := by
  have key : ∀ b0 b1 b2 b3 b4 b5 b6 b7 : Bool, ∀ k, k < 8 →
      (BitVec.ofNat 8 (bitVal b0 * 128 + (bitVal b1 * 64 + (bitVal b2 * 32 + (bitVal b3 * 16 + (bitVal b4 * 8
        + (bitVal b5 * 4 + (bitVal b6 * 2 + (bitVal b7 * 1 + 0))))))))).getLsbD (7 - k)
        = [b0, b1, b2, b3, b4, b5, b6, b7].getD k false := by decide +kernel
  have hs : ((List.range 8).map (fun j => bitVal (f j) * 2 ^ (7 - j))).sum
      = bitVal (f 0) * 128 + (bitVal (f 1) * 64 + (bitVal (f 2) * 32 + (bitVal (f 3) * 16 + (bitVal (f 4) * 8
        + (bitVal (f 5) * 4 + (bitVal (f 6) * 2 + (bitVal (f 7) * 1 + 0))))))) := rfl
  rw [hs, key _ _ _ _ _ _ _ _ k h]
  interval_cases k <;> rfl

/-- Bit k of byte j of a packed string is bit 8j + k of the string, or 0 past its end. -/
theorem packedByte_bit (bits : Bits) (j k : Nat) (h : k < 8) :
    (packedByte bits j).getLsbD (7 - k) = bitOrZero bits (8 * j + k) :=
  byteOfBits_getLsbD (fun k => bitOrZero bits (8 * j + k)) k h

theorem packBits_length (bits : Bits) : (packBits bits).length = ceil8 bits.length := by
  simp [packBits]

theorem packBits_getElem (bits : Bits) (j : Nat) (h : j < (packBits bits).length) :
    (packBits bits)[j] = packedByte bits j := by
  simp [packBits]

/-- Bit i of packed bytes is bit i of the string, or 0 past its end. -/
theorem packBits_bit (bits : Bits) (i : Nat) (h : i < 8 * ceil8 bits.length) :
    ((packBits bits).getD (i / 8) 0).getLsbD (7 - i % 8) = bitOrZero bits i := by
  have hj : i / 8 < (packBits bits).length := by rw [packBits_length]; omega
  rw [List.getD_eq_getElem?_getD, List.getElem?_eq_getElem hj, Option.getD_some, packBits_getElem,
    packedByte_bit _ _ _ (by omega), Nat.div_add_mod]

/-- Bit i of a bitstream stored packed. -/
theorem bitAt_writePacked (s : State) (a i : Nat) (bits : Bits) (h : i < 8 * ceil8 bits.length) :
    (s.writeBytes a (packBits bits)).bitAt a i = bitOrZero bits i := by
  have hj : i / 8 < (packBits bits).length := by rw [packBits_length]; omega
  rw [State.bitAt, bitOfByte, readByte_writeBytes_inside _ _ _ _ hj, packBits_getElem,
    packedByte_bit _ _ _ (by omega), Nat.div_add_mod]

theorem unpackBits_getElem (s : State) (a n i : Nat) (h : i < (s.unpackBits a n).length) :
    (s.unpackBits a n)[i] = s.bitAt a i := by
  simp [State.unpackBits]

theorem unpackBits_length (s : State) (a n : Nat) : (s.unpackBits a n).length = n := by
  simp [State.unpackBits]

theorem bitOrZero_of_lt {bits : Bits} {i : Nat} (h : i < bits.length) : bitOrZero bits i = bits[i] := by
  simp [bitOrZero, List.getD, h]

theorem bitOrZero_past {bits : Bits} {i : Nat} (h : bits.length ≤ i) : bitOrZero bits i = false := by
  simp [bitOrZero, List.getD, List.getElem?_eq_none h]

/-- Bits read depend on nothing but the bytes they stand in. -/
theorem unpackBits_congr {s t : State} {a b n : Nat}
    (h : ∀ j, j < ceil8 n → t.readByte (b + j) = s.readByte (a + j)) : t.unpackBits b n = s.unpackBits a n := by
  apply List.ext_getElem
  · rw [unpackBits_length, unpackBits_length]
  · intro i h1 h2
    rw [unpackBits_length] at h1
    rw [unpackBits_getElem, unpackBits_getElem, State.bitAt, State.bitAt, h _ (by rw [ceil8]; omega)]

/-- The number a word is, from its four bytes. -/
theorem le32_toNat (v : Word) :
    (v.extractLsb' 0 8).toNat + 256 * (v.extractLsb' 8 8).toNat + 2 ^ 16 * (v.extractLsb' 16 8).toNat
      + 2 ^ 24 * (v.extractLsb' 24 8).toNat = v.toNat := by
  have := v.isLt
  simp only [BitVec.extractLsb'_toNat, Nat.shiftRight_eq_div_pow]
  omega

theorem readLE32_lt (s : State) (a : Nat) : s.readLE32 a < 2 ^ 32 := by
  have h0 := (s.readByte a).isLt
  have h1 := (s.readByte (a + 1)).isLt
  have h2 := (s.readByte (a + 2)).isLt
  have h3 := (s.readByte (a + 3)).isLt
  rw [State.readLE32]
  omega

end Sys2Proof.Laws
end

