-- ==== Sys2Proof/Laws/Decode.lean ====
section
/-! SUPPORT. The laws of the command word's fields and of the decoder. -/

namespace Sys2Proof.Laws

open Sys2Proof

@[simp] theorem splitWord_opcode (w : Word) : (splitWord w).opcode = w.extractLsb' 0 8 := rfl

@[simp] theorem splitWord_reserved (w : Word) : (splitWord w).reserved = w.extractLsb' 8 24 := rfl

theorem opcode_toNat (w : Word) : (splitWord w).opcode.toNat = w.toNat % 256 := by
  simp [BitVec.extractLsb'_toNat]

theorem reserved_toNat (w : Word) : (splitWord w).reserved.toNat = w.toNat / 256 := by
  have := w.isLt
  simp only [splitWord_reserved, BitVec.extractLsb'_toNat, Nat.shiftRight_eq_div_pow]
  omega

theorem reservedIsZero_iff (w : Word) : (splitWord w).reservedIsZero = true ↔ w.toNat / 256 = 0 := by
  rw [CmdWord.reservedIsZero, beq_iff_eq, ← reserved_toNat]
  exact ⟨fun h => by rw [h]; rfl, fun h => BitVec.eq_of_toNat_eq h⟩

/-- A word with RESERVED = 0 decodes by its OPCODE. -/
theorem decode_of_reserved_zero {w : Word} (h : w.toNat / 256 = 0) :
    decode w = match instrOfOpcode (splitWord w).opcode with
      | some i => .ok i
      | none => .error .opcodeUnmapped :=
  if_pos ((reservedIsZero_iff w).mpr h)

/-- A word with a non-zero RESERVED field is rejected. -/
theorem decode_of_reserved_ne {w : Word} (h : w.toNat / 256 ≠ 0) : decode w = .error .reservedNotZero := by
  rw [decode, if_neg (fun hr => h ((reservedIsZero_iff w).mp hr))]

/-- The opcode map lists OPCODEs up to 0x0D, and each is that of its command. -/
theorem instrOfOpcode_some {op : BitVec 8} {i : Instr} (h : instrOfOpcode op = some i) : opcodeOf i = op := by
  have : ∀ op : BitVec 8, ∀ i, instrOfOpcode op = some i → opcodeOf i = op := by decide
  exact this op i h

theorem instrOfOpcode_none {op : BitVec 8} (h : 0x0D < op.toNat) : instrOfOpcode op = none := by
  have : ∀ op : BitVec 8, 0x0D < op.toNat → instrOfOpcode op = none := by decide
  exact this op h

theorem instrOfOpcode_of_le {op : BitVec 8} (h : op.toNat ≤ 0x0D) : ∃ i, instrOfOpcode op = some i := by
  have : ∀ op : BitVec 8, op.toNat ≤ 0x0D → (instrOfOpcode op).isSome := by decide
  exact Option.isSome_iff_exists.mp (this op h)

end Sys2Proof.Laws
end

