-- ==== Sys2Proof/Laws/Ops.lean ====
section
/-! SUPPORT. What each shared operation can do, said once: the checks of steps 2 to 4, the ends of a command, the
stores, and that every command is one run of `runCommand`. -/

namespace Sys2Proof.Laws

open Sys2Proof Sys2Proof.Machine

@[simp] theorem conclude_early (s : State) (e : CmdError) : s.conclude (.early e) = s.complete (some e) := rfl

@[simp] theorem conclude_late (s : State) (e : CmdError) :
    s.conclude (.late e) = (s.scrambleDst s.operands).complete (some e) := rfl

@[simp] theorem conclude_commit (s t : State) : s.conclude (.commit t) = t.complete none := rfl

theorem operands_latched {s : State} {p : Operands} (h : s.latched = some p) : s.operands = p := by
  simp [State.operands, h]

theorem operands_idle {s : State} (h : s.latched = none) : s.operands = s.liveOperands := by
  simp [State.operands, h]

/-- When steps 2 to 4 raise nothing. -/
theorem earlyError_none_iff (u : Uses) (p : Operands) (s : State) :
    earlyError u p s = none ↔
      limitExceeded u p = false ∧ rangeFails u p s.memSize = false ∧ notBuilt u s.model = false := by
  unfold earlyError
  cases limitExceeded u p <;> cases rangeFails u p s.memSize <;> cases notBuilt u s.model <;> simp

/-- A command that uses no range, guards nothing and needs no valid bit passes steps 2 to 4. -/
theorem earlyError_free (p : Operands) (s : State) : earlyError ⟨false, false, false, none⟩ p s = none := by
  simp [earlyError, limitExceeded, rangeFails, notBuilt]

/-- Which error steps 2 to 4 raise: the first of the three that fails. -/
theorem earlyError_some_iff (u : Uses) (p : Operands) (s : State) (e : CmdError) :
    earlyError u p s = some e ↔
      (limitExceeded u p = true ∧ e = .limitExceeded)
        ∨ (limitExceeded u p = false ∧ rangeFails u p s.memSize = true ∧ e = .range)
        ∨ (limitExceeded u p = false ∧ rangeFails u p s.memSize = false ∧ notBuilt u s.model = true
            ∧ e = .modelNotBuilt) := by
  unfold earlyError
  cases limitExceeded u p <;> cases rangeFails u p s.memSize <;> cases notBuilt u s.model <;> simp [eq_comm]

/-- A command raises the error of steps 2 to 4, or runs its own steps; it always answers a next state. -/
theorem runCommand_cases (u : Uses) (body : Operands → State → CmdResult) (s : State) :
    (∃ e, earlyError u s.operands s = some e ∧ runCommand u body s = .next (s.complete (some e)))
      ∨ (earlyError u s.operands s = none ∧ runCommand u body s = .next (s.conclude (body s.operands s))) := by
  unfold runCommand
  cases h : earlyError u s.operands s with
  | none => exact Or.inr ⟨rfl, rfl⟩
  | some e => exact Or.inl ⟨e, rfl, rfl⟩

theorem runCommand_passes {u : Uses} {body : Operands → State → CmdResult} {s : State}
    (h : earlyError u s.operands s = none) : runCommand u body s = .next (s.conclude (body s.operands s)) := by
  unfold runCommand
  rw [h]

/-- A store to the destination range fits and writes it, or is DST_OVERFLOW. -/
theorem storeOutput_cases (p : Operands) (out : List Byte) (s : State) :
    (out.length ≤ p.dstCap.toNat ∧ storeOutput p out s
        = .commit { s.writeBytes p.dstAddr.toNat out with outLen := BitVec.ofNat 32 out.length })
      ∨ (p.dstCap.toNat < out.length ∧ storeOutput p out s = .late .dstOverflow) := by
  unfold storeOutput
  by_cases h : p.dstCap.toNat < out.length
  · exact Or.inr ⟨h, if_pos h⟩
  · exact Or.inl ⟨by omega, if_neg h⟩

/-- A packed store fits and writes the packed bytes and BIT_LEN, or is DST_OVERFLOW. -/
theorem storePacked_cases (p : Operands) (bits : Bits) (s : State) :
    (bits.length ≤ 0xFFFFFFFF ∧ ceil8 bits.length ≤ p.dstCap.toNat ∧ storePacked p bits s
        = .commit { s.writeBytes p.dstAddr.toNat (packBits bits) with
            bitLen := BitVec.ofNat 32 bits.length
            outLen := BitVec.ofNat 32 (ceil8 bits.length) })
      ∨ ((0xFFFFFFFF < bits.length ∨ p.dstCap.toNat < ceil8 bits.length)
          ∧ storePacked p bits s = .late .dstOverflow) := by
  unfold storePacked
  by_cases h : 0xFFFFFFFF < bits.length
  · exact Or.inr ⟨Or.inl h, if_pos h⟩
  · rw [if_neg h]
    rcases storeOutput_cases p (packBits bits) { s with bitLen := BitVec.ofNat 32 bits.length } with ⟨h1, h2⟩ | ⟨h1, h2⟩
    · left
      rw [packBits_length] at h1 h2
      exact ⟨by omega, h1, by rw [h2]; rfl⟩
    · right
      rw [packBits_length] at h1
      exact ⟨Or.inr h1, h2⟩

/-- Steps 5 to 8 of each command. -/
def bodyOf : Instr → Operands → State → CmdResult
  | .nop => fun _ t => .commit t
  | .clearModel => fun _ t => .commit t.clearModel
  | .scan => scanBody
  | .loadFreq => loadFreqBody
  | .saveFreq => saveFreqBody
  | .buildTree => buildTreeBody
  | .buildCodes => buildCodesBody
  | .buildPart => buildPartBody
  | .huffEnc => huffEncBody
  | .huffDec => huffDecBody
  | .arithEnc => arithEncBody
  | .arithDec => arithDecBody
  | .pack => packBody
  | .unpack => unpackBody

/-- Every command is one run of `runCommand` with its row of the operand table. -/
theorem exec_eq_runCommand (i : Instr) (s : State) : exec i s = runCommand (usesOf i) (bodyOf i) s := by
  cases i <;> rfl

/-- The fields a committed state shares with the state before, whatever the command (40_control.md R157). -/
structure SameSurroundings (s t : State) : Prop where
  cmd : t.cmd = s.cmd
  status : t.status = s.status
  irqEn : t.irqEn = s.irqEn
  sizeLimit : t.sizeLimit = s.sizeLimit
  srcAddr : t.srcAddr = s.srcAddr
  srcLen : t.srcLen = s.srcLen
  dstAddr : t.dstAddr = s.dstAddr
  dstCap : t.dstCap = s.dstCap
  freqIdx : t.freqIdx = s.freqIdx
  nodeIdx : t.nodeIdx = s.nodeIdx
  codeIdx : t.codeIdx = s.codeIdx
  partIdx : t.partIdx = s.partIdx
  latched : t.latched = s.latched
  memTop : t.memTop = s.memTop
  resets : t.resets = s.resets
  draws : t.draws = s.draws
  host : t.host = s.host
  hostTurns : t.hostTurns = s.hostTurns
  latencies : t.latencies = s.latencies
  replies : t.replies = s.replies

/-- What a store that commits does: MEM and OUT_LEN, inside the capacity. -/
theorem storeOutput_commit {p : Operands} {out : List Byte} {s t : State} (h : storeOutput p out s = .commit t) :
    out.length ≤ p.dstCap.toNat
      ∧ t = { s.writeBytes p.dstAddr.toNat out with outLen := BitVec.ofNat 32 out.length } := by
  rcases storeOutput_cases p out s with ⟨h1, h2⟩ | ⟨_, h2⟩
  · rw [h2] at h
    cases h
    exact ⟨h1, rfl⟩
  · rw [h2] at h
    cases h

/-- What a packed store that commits does. -/
theorem storePacked_commit {p : Operands} {bits : Bits} {s t : State} (h : storePacked p bits s = .commit t) :
    bits.length ≤ 0xFFFFFFFF ∧ ceil8 bits.length ≤ p.dstCap.toNat
      ∧ t = { s.writeBytes p.dstAddr.toNat (packBits bits) with
          bitLen := BitVec.ofNat 32 bits.length
          outLen := BitVec.ofNat 32 (ceil8 bits.length) } := by
  rcases storePacked_cases p bits s with ⟨h1, h2, h3⟩ | ⟨_, h3⟩
  · rw [h3] at h
    cases h
    exact ⟨h1, h2, rfl⟩
  · rw [h3] at h
    cases h

theorem same_of_storeOutput {p : Operands} {out : List Byte} {s t : State} (h : storeOutput p out s = .commit t) :
    SameSurroundings s t := by
  obtain ⟨_, rfl⟩ := storeOutput_commit h
  constructor <;> rfl

theorem same_of_storePacked {p : Operands} {bits : Bits} {s t : State} (h : storePacked p bits s = .commit t) :
    SameSurroundings s t := by
  obtain ⟨_, _, rfl⟩ := storePacked_commit h
  constructor <;> rfl

/-- Whatever the command, a commit leaves its surroundings as they were. -/
theorem bodyOf_commit_same {i : Instr} {p : Operands} {s t : State} (h : bodyOf i p s = .commit t) :
    SameSurroundings s t := by
  cases i with
  | nop => cases h; constructor <;> rfl
  | clearModel => cases h; constructor <;> rfl
  | scan => cases h; constructor <;> rfl
  | loadFreq =>
    simp only [bodyOf, loadFreqBody] at h
    split at h
    · cases h
    · split at h
      · cases h
      · cases h; constructor <;> rfl
  | saveFreq => exact same_of_storeOutput h
  | buildTree => cases h; constructor <;> rfl
  | buildCodes => cases h; constructor <;> rfl
  | buildPart =>
    simp only [bodyOf, buildPartBody] at h
    split at h
    · cases h
    · cases h; constructor <;> rfl
  | huffEnc =>
    simp only [bodyOf, huffEncBody] at h
    split at h
    · cases h
    · obtain ⟨_, _, rfl⟩ := storePacked_commit h
      constructor <;> rfl
  | huffDec =>
    simp only [bodyOf, huffDecBody] at h
    split at h
    · cases h
    · split at h
      · cases h
      · obtain ⟨_, rfl⟩ := storeOutput_commit h
        constructor <;> rfl
  | arithEnc =>
    simp only [bodyOf, arithEncBody] at h
    split at h
    · cases h
    · obtain ⟨_, _, rfl⟩ := storePacked_commit h
      constructor <;> rfl
  | arithDec =>
    simp only [bodyOf, arithDecBody] at h
    split at h
    · cases h
    · split at h
      · cases h
      · exact same_of_storeOutput h
  | pack =>
    simp only [bodyOf, packBody] at h
    split at h
    · exact same_of_storePacked h
    · cases h
  | unpack =>
    simp only [bodyOf, unpackBody] at h
    split at h
    · cases h
    · exact same_of_storeOutput h

/-- Whatever the command, a commit writes MEM only inside the destination range, as one byte string from DST_ADDR. -/
theorem bodyOf_commit_mem {i : Instr} {p : Operands} {s t : State} (h : bodyOf i p s = .commit t) :
    t.mem = s.mem
      ∨ ((usesOf i).writesDst = true ∧ ∃ out : List Byte, out.length ≤ p.dstCap.toNat
          ∧ t.outLen = BitVec.ofNat 32 out.length ∧ t.mem = Memory.writeBytes s.mem p.dstAddr.toNat out) := by
  cases i with
  | nop => cases h; exact Or.inl rfl
  | clearModel => cases h; exact Or.inl rfl
  | scan => cases h; exact Or.inl rfl
  | loadFreq =>
    simp only [bodyOf, loadFreqBody] at h
    split at h
    · cases h
    · split at h
      · cases h
      · cases h; exact Or.inl rfl
  | saveFreq =>
    obtain ⟨hl, rfl⟩ := storeOutput_commit h
    exact Or.inr ⟨rfl, _, hl, rfl, rfl⟩
  | buildTree => cases h; exact Or.inl rfl
  | buildCodes => cases h; exact Or.inl rfl
  | buildPart =>
    simp only [bodyOf, buildPartBody] at h
    split at h
    · cases h
    · cases h; exact Or.inl rfl
  | huffEnc =>
    simp only [bodyOf, huffEncBody] at h
    split at h
    · cases h
    · obtain ⟨_, hl, rfl⟩ := storePacked_commit h
      exact Or.inr ⟨rfl, _, by rw [packBits_length]; exact hl, by rw [packBits_length], rfl⟩
  | huffDec =>
    simp only [bodyOf, huffDecBody] at h
    split at h
    · cases h
    · split at h
      · cases h
      · obtain ⟨hl, rfl⟩ := storeOutput_commit h
        exact Or.inr ⟨rfl, _, hl, rfl, rfl⟩
  | arithEnc =>
    simp only [bodyOf, arithEncBody] at h
    split at h
    · cases h
    · obtain ⟨_, hl, rfl⟩ := storePacked_commit h
      exact Or.inr ⟨rfl, _, by rw [packBits_length]; exact hl, by rw [packBits_length], rfl⟩
  | arithDec =>
    simp only [bodyOf, arithDecBody] at h
    split at h
    · cases h
    · split at h
      · cases h
      · obtain ⟨hl, rfl⟩ := storeOutput_commit h
        exact Or.inr ⟨rfl, _, hl, rfl, rfl⟩
  | pack =>
    simp only [bodyOf, packBody] at h
    split at h
    · obtain ⟨_, hl, rfl⟩ := storePacked_commit h
      exact Or.inr ⟨rfl, _, by rw [packBits_length]; exact hl, by rw [packBits_length], rfl⟩
    · cases h
  | unpack =>
    simp only [bodyOf, unpackBody] at h
    split at h
    · cases h
    · obtain ⟨hl, rfl⟩ := storeOutput_commit h
      exact Or.inr ⟨rfl, _, hl, rfl, rfl⟩

/-- The error a command's own steps raise at step 5. -/
theorem bodyOf_early {i : Instr} {p : Operands} {s : State} {e : CmdError} (h : bodyOf i p s = .early e) :
    e = .invalidInput ∨ e = .precisionExhaustion := by
  cases i <;>
    simp only [bodyOf, scanBody, loadFreqBody, saveFreqBody, buildTreeBody, buildCodesBody, buildPartBody,
      huffEncBody, huffDecBody, arithEncBody, arithDecBody, packBody, unpackBody, storePacked, storeOutput] at h <;>
    (repeat' split at h) <;> first | (cases h; done) | (cases h; exact Or.inl rfl) | (cases h; exact Or.inr rfl)

/-- The error a command's own steps raise at step 6 or 7. -/
theorem bodyOf_late {i : Instr} {p : Operands} {s : State} {e : CmdError} (h : bodyOf i p s = .late e) :
    (usesOf i).writesDst = true ∧ (e = .modelMismatch ∨ e = .dstOverflow) := by
  cases i <;>
    simp only [bodyOf, scanBody, loadFreqBody, saveFreqBody, buildTreeBody, buildCodesBody, buildPartBody,
      huffEncBody, huffDecBody, arithEncBody, arithDecBody, packBody, unpackBody, storePacked, storeOutput] at h <;>
    (repeat' split at h) <;>
    first | (cases h; done) | (cases h; exact ⟨rfl, Or.inl rfl⟩) | (cases h; exact ⟨rfl, Or.inr rfl⟩)

/-- THE inversion lemma of `exec`: an error of steps 2 to 4, an error of step 5, an error of step 6 or 7, or a
commit; it always answers a next state. -/
theorem exec_cases (i : Instr) (s : State) :
    (∃ e, earlyError (usesOf i) s.operands s = some e ∧ exec i s = .next (s.complete (some e)))
      ∨ (earlyError (usesOf i) s.operands s = none
          ∧ ((∃ e, bodyOf i s.operands s = .early e ∧ exec i s = .next (s.complete (some e)))
            ∨ (∃ e, bodyOf i s.operands s = .late e
                ∧ exec i s = .next ((s.scrambleDst s.operands).complete (some e)))
            ∨ (∃ t, bodyOf i s.operands s = .commit t ∧ exec i s = .next (t.complete none)))) := by
  rw [exec_eq_runCommand]
  rcases runCommand_cases (usesOf i) (bodyOf i) s with ⟨e, h1, h2⟩ | ⟨h1, h2⟩
  · exact Or.inl ⟨e, h1, h2⟩
  · refine Or.inr ⟨h1, ?_⟩
    rw [h2]
    cases hb : bodyOf i s.operands s with
    | early e => exact Or.inl ⟨e, rfl, rfl⟩
    | late e => exact Or.inr (Or.inl ⟨e, rfl, rfl⟩)
    | commit t => exact Or.inr (Or.inr ⟨t, rfl, rfl⟩)

/-- A command whose own steps commit, when steps 2 to 4 raise nothing. -/
theorem exec_commit {i : Instr} {s t : State} (h : earlyError (usesOf i) s.operands s = none)
    (hb : bodyOf i s.operands s = .commit t) : exec i s = .next (t.complete none) := by
  rw [exec_eq_runCommand, runCommand_passes h, hb, conclude_commit]

/-- The destination range lies inside MEM when the range check passes. -/
theorem dst_inside_of_passes {u : Uses} {p : Operands} {s : State} (h : earlyError u p s = none)
    (hw : u.writesDst = true) : p.dstAddr.toNat + p.dstCap.toNat ≤ s.memSize := by
  have h2 := ((earlyError_none_iff u p s).mp h).2.1
  simp [rangeFails, hw, dstOutside] at h2
  exact h2.2.1

end Sys2Proof.Laws
end

