-- ==== Sys2Proof/Laws/PerInstr.lean ====
section
/-! SUPPORT. The family WordOfTable: the command word of each command is the word of its row of the opcode map
(spec/30_encoding.md R130, R133), with RESERVED = 0. -/

namespace Sys2Proof.Laws.WordOfTable

open Sys2Proof

/-- The word of a command as a number: its OPCODE, below 0x0E, with every higher bit 0. -/
def Statement (i : Instr) : Prop :=
  (encode i).toNat = (opcodeOf i).toNat ∧ (opcodeOf i).toNat ≤ 0x0D ∧ (splitWord (encode i)).wellFormed = true

theorem nop : Statement .nop := by unfold Statement; decide
theorem clearModel : Statement .clearModel := by unfold Statement; decide
theorem scan : Statement .scan := by unfold Statement; decide
theorem loadFreq : Statement .loadFreq := by unfold Statement; decide
theorem saveFreq : Statement .saveFreq := by unfold Statement; decide
theorem buildTree : Statement .buildTree := by unfold Statement; decide
theorem buildCodes : Statement .buildCodes := by unfold Statement; decide
theorem buildPart : Statement .buildPart := by unfold Statement; decide
theorem huffEnc : Statement .huffEnc := by unfold Statement; decide
theorem huffDec : Statement .huffDec := by unfold Statement; decide
theorem arithEnc : Statement .arithEnc := by unfold Statement; decide
theorem arithDec : Statement .arithDec := by unfold Statement; decide
theorem pack : Statement .pack := by unfold Statement; decide
theorem unpack : Statement .unpack := by unfold Statement; decide

end Sys2Proof.Laws.WordOfTable
end

