-- ==== Sys2Proof/Tests/Slice0.lean ====
section
/-! SUPPORT. Tests: the checks of WellFormed refuse ill-formed terms, command words written out from the encoding decode
to their commands, single steps against the vectors of spec/95_test_vectors.md, and a witness for the hypotheses of
every obligation that has some. -/

-- The kernel evaluates these theorems one after another: elaborated in parallel, they would wait in a thread each.
set_option Elab.async false

namespace Sys2Proof.Tests

open Sys2Proof Sys2Proof.Machine Sys2Proof.Claims

/-! ### WellFormed refuses -/

theorem test_illformed_reserved : CmdWord.reservedIsZero ⟨0x0A, 0x000001⟩ = false := by decide
theorem test_illformed_reserved_word : CmdWord.wellFormed ⟨0x0A, 0x000001⟩ = false := by decide
theorem test_illformed_opcode : CmdWord.opcodeIsMapped ⟨0x0E, 0⟩ = false := by decide
theorem test_illformed_opcode_word : CmdWord.wellFormed ⟨0xFF, 0⟩ = false := by decide
theorem test_illformed_width : regWidthOk 16 = false := by decide
theorem test_illformed_alignment : regAligned 0x00A = false := by decide
theorem test_illformed_offset : regInBlock 0x100 = false := by decide
theorem test_illformed_access : regAccessOk 8 0x00C = false := by decide
theorem test_illformed_regWrite : HostOp.wellFormed 0x1000 (.regWrite 32 0x00A 0) = false := by decide
theorem test_illformed_regRead : HostOp.wellFormed 0x1000 (.regRead 32 0x100) = false := by decide
theorem test_illformed_memWrite : HostOp.wellFormed 0x1000 (.memWrite 0x1000 0) = false := by decide
theorem test_illformed_memRead : HostOp.wellFormed 0x1000 (.memRead 0x1000) = false := by decide
theorem test_wellformed_edges :
    HostOp.wellFormed 0x1000 (.memRead 0xFFF) = true ∧ regAccessOk 32 0x0FC = true
      ∧ CmdWord.wellFormed ⟨0x0D, 0⟩ = true := by decide

/-! ### Words written out from 30_encoding.md R130 and R133: RESERVED [31:8], OPCODE [7:0] -/

theorem test_decode_nop : decode 0b00000000000000000000000000000000#32 = .ok .nop := by decide
theorem test_decode_clearModel : decode 0b00000000000000000000000000000001#32 = .ok .clearModel := by decide
theorem test_decode_scan : decode 0b00000000000000000000000000000010#32 = .ok .scan := by decide
theorem test_decode_loadFreq : decode 0b00000000000000000000000000000011#32 = .ok .loadFreq := by decide
theorem test_decode_saveFreq : decode 0b00000000000000000000000000000100#32 = .ok .saveFreq := by decide
theorem test_decode_buildTree : decode 0b00000000000000000000000000000101#32 = .ok .buildTree := by decide
theorem test_decode_buildCodes : decode 0b00000000000000000000000000000110#32 = .ok .buildCodes := by decide
theorem test_decode_buildPart : decode 0b00000000000000000000000000000111#32 = .ok .buildPart := by decide
theorem test_decode_huffEnc : decode 0b00000000000000000000000000001000#32 = .ok .huffEnc := by decide
theorem test_decode_huffDec : decode 0b00000000000000000000000000001001#32 = .ok .huffDec := by decide
theorem test_decode_arithEnc : decode 0b00000000000000000000000000001010#32 = .ok .arithEnc := by decide
theorem test_decode_arithDec : decode 0b00000000000000000000000000001011#32 = .ok .arithDec := by decide
theorem test_decode_pack : decode 0b00000000000000000000000000001100#32 = .ok .pack := by decide
theorem test_decode_unpack : decode 0b00000000000000000000000000001101#32 = .ok .unpack := by decide

/-- Vectors K3, K4, K5 of L2.1: no command. -/
theorem test_decode_illegal :
    decode 0x0000000E#32 = .error .opcodeUnmapped ∧ decode 0x0000010A#32 = .error .reservedNotZero
      ∧ decode 0xFFFFFFFF#32 = .error .reservedNotZero := by decide

theorem test_decodeTableWord : decodeTableWord 32 0x0D = some .unpack ∧ decodeTableWord 8 0x0E = none := by decide

/-! ### The fixtures -/

/-- The state a command answers. -/
def after (i : Instr) (s : State) : State :=
  match exec i s with
  | .next t => t
  | .fault _ => s
  | .refused _ => s

theorem next_after (i : Instr) (s : State) : exec i s = .next (after i s) := by
  rcases Laws.exec_cases i s with ⟨e, _, h⟩ | ⟨_, ⟨e, _, h⟩ | ⟨e, _, h⟩ | ⟨t, _, h⟩⟩ <;> rw [after, h]

/-- Operand registers and source bytes put into a state. -/
def setOperands (src : List Byte) (cap : Word) (s : State) : State :=
  { s with
    srcLen := BitVec.ofNat 32 src.length
    dstAddr := 0x800
    dstCap := cap
    mem := Memory.writeBytes [] 0 src }

/-- BIT_LEN and SYM_COUNT put into a state. -/
def setCounts (bits syms : Word) (s : State) : State := { s with bitLen := bits, symCount := syms }

/-- A command word issued, with OVR set before, and a host operation to come. -/
def busyWith (w : Word) (s : State) : State :=
  { s with cmd := w, status := ⟨true, false, false, 0, true⟩, latched := some s.liveOperands, host := [.memRead 0] }

/-- A core with MEM_SIZE 0x1000, a source range at 0 that holds `src`, and a destination range of `cap` bytes at
0x800. -/
def ready (src : List Byte) (cap : Word) : State := setOperands src cap (State.resetAt 0xFFF)

/-- A state with the given counts, tree, codes and partition, every valid bit set. -/
def setModel (counts : List (Nat × Word)) (nodes : List Node) (codes : List (Nat × Bits)) (sums : Nat → Word)
    (s : State) : State :=
  { s with
    freq := counts.foldl (fun t x => t.set x.1 x.2) (Table.replicate 256 0)
    total := (counts.map Prod.snd).sum
    arena := arenaOf nodes
    code := codes.foldl (fun t x => t.set x.1 x.2) (Table.replicate 256 [])
    cum := Table.tabulate 257 sums
    model := ⟨true, true, true, BitVec.ofNat 9 counts.length⟩ }

/-- The model of "AAABBC": F1, T1 and the partition of L2.4. -/
def modelABC : State → State :=
  setModel [(0x41, 3), (0x42, 2), (0x43, 1)]
    [.leaf 0x41 3, .leaf 0x42 2, .leaf 0x43 1, .internal 2 1 3, .internal 0 3 6]
    [(0x41, [false]), (0x42, [true, true]), (0x43, [true, false])]
    (fun i => if i < 0x42 then 0 else if i < 0x43 then 3 else if i < 0x44 then 5 else 6)

/-- The model of "AAAA": T2. -/
def modelA : State → State :=
  setModel [(0x41, 4)] [.leaf 0x41 4] [(0x41, [false])] (fun i => if i < 0x42 then 0 else 4)

/-- The empty model: T7. -/
def modelNone : State → State := setModel [] [] [] (fun _ => 0)

/-- "AAABBC" (L1.1). -/
def aaabbc : List Byte := [0x41, 0x41, 0x41, 0x42, 0x42, 0x43]

/-- The body "AAABBC" in MEM and its model built. -/
def coded : State := setCounts 10 6 (modelABC (ready aaabbc 16))

/-- A state that decodes: `src` in MEM, a model built, BIT_LEN and SYM_COUNT given. -/
def coming (model : State → State) (src : List Byte) (bits syms cap : Word) : State :=
  setCounts bits syms (model (ready src cap))

/-- A running BUILD_TREE, so that ENGINE moves next. -/
def running : State := busyWith 5 coded

/-- What of the invariant can be computed, for a state in which no command runs and none has raised an error. -/
def checks (s : State) : Bool :=
  Memory.wf s.mem && s.mem.all (fun c => decide (c.1 < s.memSize))
    && s.status == ⟨false, s.status.done, false, 0, s.status.ovr⟩ && s.latched == none
    && s.total.toNat == (s.freq.entries.map BitVec.toNat).sum
    && s.model.distinct.toNat == s.freq.entries.countP (fun c => decide (c ≠ 0))
    && s.arena == buildArena s.freq && s.model.treeValid && s.code == buildCodeTable s.arena
    && s.cum == buildCum s.freq && decide (partitionTotal s.freq ≤ maxTotal)
    && (s.arena.node.entries.drop s.arena.count.toNat).all (fun n => n == .unused)
    && decide (s.arena.count.toNat ≤ 511) && s.code.entries.all (fun c => decide (c.length ≤ 255))
    && cumAt s.cum 0 == 0
    && (List.range 256).all (fun i => decide (cumAt s.cum i ≤ cumAt s.cum (i + 1)))

theorem inv_of_checks {s : State} (h : checks s = true) : Inv s := by
  simp only [checks, Bool.and_eq_true, beq_iff_eq, decide_eq_true_eq, List.all_eq_true] at h
  obtain ⟨⟨⟨⟨⟨⟨⟨⟨⟨⟨⟨⟨⟨⟨⟨hmem, hin⟩, hst⟩, hl⟩, htot⟩, hd⟩, ha⟩, htv⟩, hc⟩, hu⟩, hp⟩, hun⟩, hcnt⟩, hsh⟩, hc0⟩, hri⟩ := h
  have hb : s.status.busy = false := by rw [hst]
  have he : s.status.err = false := by rw [hst]
  have hk : s.status.errcode = 0 := by rw [hst]
  exact
    { memCanonical := hmem
      memInside := hin
      errIffCode := by simp [he, hk]
      errcodeKnown := by simp [hk]
      latchedIffBusy := by simp [hl, hb]
      latchedCurrent := by simp [hl]
      busyClean := by simp [hb]
      totalIsSum := htot
      distinctIsCount := hd
      treeBuilt := fun _ => ha
      codesBuilt := fun _ => ⟨htv, hc⟩
      partBuilt := fun _ => ⟨hu, hp⟩
      arenaUnused := by
        intro i hi
        rw [Arena.nodeAt, Table.get, List.getD]
        cases hg : s.arena.node.entries[i]? with
        | none => rfl
        | some n =>
          have hm : (s.arena.node.entries.drop s.arena.count.toNat)[i - s.arena.count.toNat]? = some n := by
            rw [List.getElem?_drop, Nat.add_sub_cancel' hi, hg]
          exact hun n (List.mem_of_getElem? hm)
      arenaCount := hcnt
      codeShort := by
        intro b
        rw [State.codeAt, Table.get, List.getD]
        cases hg : s.code.entries[b.toNat]? with
        | none => exact Nat.zero_le _
        | some c => exact hsh c (List.mem_of_getElem? hg)
      cumStart := hc0
      cumRises := fun i hi => hri i (List.mem_range.mpr hi) }

theorem inv_coded : Inv coded := inv_of_checks (by decide +kernel)

/-- A single-leaf tree. -/
def codedSingle : State := modelA (ready [0x41] 16)

theorem inv_codedSingle : Inv codedSingle := inv_of_checks (by decide +kernel)

/-- The destination's size is no matter of the invariant while no command runs. -/
theorem inv_dstCap {s : State} (h : Inv s) (hl : s.latched = none) (cap : Word) : Inv { s with dstCap := cap } :=
  { h with latchedCurrent := fun _ hp => (Option.some_ne_none _ (hp.symm.trans hl)).elim }

/-- Issuing a command keeps the invariant. -/
theorem inv_busyWith {s : State} (h : Inv s) (w : Word) : Inv (busyWith w s) :=
  { h with
    errIffCode := ⟨fun h => Bool.noConfusion h, fun h => (h rfl).elim⟩
    errcodeKnown := Nat.zero_le _
    latchedIffBusy := rfl
    latchedCurrent := fun _ hp => Option.some.inj hp.symm
    busyClean := fun _ => ⟨rfl, rfl⟩ }

/-- The same tables, with a destination range that is too small. -/
def cramped : State := { coded with dstCap := 1 }

theorem inv_cramped : Inv cramped := inv_dstCap inv_coded (by decide +kernel) 1

theorem inv_running : Inv running := inv_busyWith inv_coded 5

/-! ### Single steps against the vectors of spec/95_test_vectors.md -/

/-- What a completion shows: STATUS, OUT_LEN, BIT_LEN, SYM_COUNT. -/
def shown (t : State) : List Nat := [t.status.toWord, t.outLen, t.bitLen, t.symCount].map BitVec.toNat

/-- Vector K1. -/
theorem test_nop_K1 : shown (after .nop (State.resetAt 0xFFF)) = [0x02, 0, 0, 0] := by decide +kernel

/-- Vector K2. -/
theorem test_clearModel_K2 :
    (after .clearModel coded).model.toWord = 0 ∧ (after .clearModel coded).total = 0
      ∧ (after .clearModel coded).arena.infoWord = 0x01FF0000 := by decide +kernel

/-- Vector K3: an illegal word completes with ILLEGAL_COMMAND. -/
theorem test_illegal_K3 :
    step ((State.resetAt 0xFFF).withFetchWord 32 0x0E)
      = .next { State.resetAt 0xFFF with cmd := 0x0E, status := ⟨false, true, true, 4, false⟩ } := rfl

/-- Vectors K12 and K13: MODEL_NOT_BUILT, and RANGE before it. -/
theorem test_huffEnc_K12_K13 :
    shown (after .huffEnc (State.resetAt 0xFFF)) = [0x56, 0, 0, 0]
      ∧ shown (after .huffEnc { State.resetAt 0xFFF with srcLen := 16, dstAddr := 8, dstCap := 16 }) = [0x66, 0, 0, 0] := by
  decide +kernel

/-- Vectors K14 and K16. -/
theorem test_scan_K14_K16 :
    shown (after .scan { State.resetAt 0xFFF with sizeLimit := 4, srcLen := 5, srcAddr := 0xFFF }) = [0x86, 0, 0, 0]
      ∧ shown (after .scan { State.reset with srcAddr := 0xFFFFFFFF, srcLen := 2 }) = [0x66, 0, 0, 0] := by
  decide +kernel

/-- Vector F1. -/
theorem test_scan_F1 :
    (after .scan (ready aaabbc 0)).total = 6 ∧ (after .scan (ready aaabbc 0)).model.toWord = 0x00000300
      ∧ (after .scan (ready aaabbc 0)).freq.get 0x42 0 = 2 := by decide +kernel

/-- The image of vector F5. -/
def imageF5 : List Byte :=
  List.replicate 0x104 0 ++ [3, 0, 0, 0, 2, 0, 0, 0, 1, 0, 0, 0] ++ List.replicate (1024 - 0x110) 0

/-- Vectors F5 and F6. -/
theorem test_saveFreq_F5 :
    freqImage coded.freq = imageF5 ∧ shown (after .saveFreq { coded with dstCap := 1024 }) = [0x02, 1024, 10, 6] := by
  decide +kernel

theorem test_saveFreq_F6 : shown (after .saveFreq { coded with dstCap := 1023 }) = [0x76, 0, 10, 6] := by
  decide +kernel

/-- The byte order of the image, and vector F8. -/
theorem test_loadFreq_order : (ready [0x04, 0x03, 0x02, 0x01] 0).readLE32 0 = 0x01020304 := by decide +kernel

theorem test_loadFreq_F8 : shown (after .loadFreq (ready (imageF5.take 23) 0)) = [0x16, 0, 0, 0] := by
  decide +kernel

/-- Vector T1: the arena, and the node windows of the root. -/
theorem test_buildTree_T1 :
    ((after .buildTree coded).arena.node.entries.take 6
        = [.leaf 0x41 3, .leaf 0x42 2, .leaf 0x43 1, .internal 2 1 3, .internal 0 3 6, .unused])
      ∧ ({ coded with nodeIdx := 4 } : State).regValue .nodeInfo = 0x40000600 := by decide +kernel

/-- Vector T3: the ties. -/
theorem test_buildTree_T3 :
    (buildArena ((scanCounts [0x41, 0x42, 0x43, 0x44]).map (BitVec.ofNat 32))).node.entries.take 7
      = [.leaf 0x41 1, .leaf 0x42 1, .leaf 0x43 1, .leaf 0x44 1, .internal 0 1 2, .internal 2 3 2, .internal 4 5 4] := by
  decide +kernel

/-- The codes of T1, with their windows. -/
theorem test_buildCodes_T1 :
    ((after .buildCodes coded).code.entries.drop 0x41).take 4 = [[false], [true, true], [true, false], []]
      ∧ ({ coded with codeIdx := 0x43 } : State).regValue (.codeW 0) = 1 := by decide +kernel

/-- Vector H20. -/
theorem test_buildCodes_H20 : shown (after .buildCodes (State.resetAt 0xFFF)) = [0x56, 0, 0, 0] := by decide +kernel

/-- Vector H1. -/
theorem test_huffEnc_H1 :
    shown (after .huffEnc coded) = [0x02, 2, 9, 6] ∧ (after .huffEnc coded).readBytes 0x800 2 = [0x1F, 0x00] := by
  decide +kernel

/-- Vectors H6 and H7. -/
theorem test_huffDec_H6 :
    (after .huffDec (coming modelABC [0x1F, 0x00] 16 0 16)).readBytes 0x800 13
      = [0x41, 0x41, 0x41, 0x42, 0x42, 0x43, 0x41, 0x41, 0x41, 0x41, 0x41, 0x41, 0x41] := by decide +kernel

theorem test_huffDec_H7 : shown (after .huffDec (coming modelABC [0x1F, 0x00] 8 0 16)) = [0x26, 0, 8, 0] := by
  decide +kernel

/-- The partition of L2.4. -/
theorem test_buildPart :
    (after .buildPart coded).cum.entries.drop 0x41 = [0, 3, 5] ++ List.replicate 189 6 := by decide +kernel

/-- Vector A10. -/
theorem test_buildPart_A10 :
    shown (after .buildPart { State.resetAt 0xFFF with freq := (Table.replicate 256 0).set 0 0x40000000 }) = [0x36, 0, 0, 0] := by
  decide +kernel

/-- Vector A1. -/
theorem test_arithEnc_A1 :
    shown (after .arithEnc coded) = [0x02, 2, 10, 6] ∧ (after .arithEnc coded).readBytes 0x800 2 = [0x18, 0x80] := by
  decide +kernel

/-- Vector A12. -/
theorem test_arithEnc_A12 : shown (after .arithEnc (coming modelABC [0x41, 0x44] 0 0 16)) = [0x26, 0, 0, 0] := by
  decide +kernel

/-- Vector A16. -/
theorem test_arithDec_A16 :
    (after .arithDec (coming modelABC [0x18, 0x80] 10 8 16)).readBytes 0x800 8
      = [0x41, 0x41, 0x41, 0x42, 0x42, 0x43, 0x41, 0x42] := by decide +kernel

/-- Vector A18. -/
theorem test_arithDec_A18 :
    shown (after .arithDec { coming modelABC [0x18, 0x80] 10 6 16 with sizeLimit := 4 }) = [0x86, 0, 10, 6] := by
  decide +kernel

/-- Vectors P1 and P5. -/
theorem test_pack_P1 :
    shown (after .pack (ready [1, 0, 1, 1, 0, 0, 0, 0, 1] 2)) = [0x02, 2, 9, 0]
      ∧ (after .pack (ready [1, 0, 1, 1, 0, 0, 0, 0, 1] 2)).readBytes 0x800 2 = [0xB0, 0x80] := by decide +kernel

theorem test_pack_P5 : shown (after .pack (ready [1, 2] 2)) = [0x16, 0, 0, 0] := by decide +kernel

/-- Vectors P2 and P8. -/
theorem test_unpack_P2 :
    (after .unpack (coming modelNone [0xB0, 0x80] 9 0 9)).readBytes 0x800 9 = [1, 0, 1, 1, 0, 0, 0, 0, 1] := by
  decide +kernel

theorem test_unpack_P8 : shown (after .unpack { coming modelNone [0xB0, 0x80] 9 0 9 with srcLen := 1 }) = [0x16, 0, 9, 0] := by
  decide +kernel

/-! ### Witnesses: concrete states and operands that meet the hypotheses of each obligation -/

/-- A core right after reset, with MEM_SIZE 0x1000. -/
def fresh : State := State.resetAt 0xFFF

/-- A core with MEM_SIZE 0x1000 whose first 1024 bytes are `v`, as the source range. -/
def filled (v : Byte) : State :=
  { State.resetAt 0xFFF with srcLen := 1024, mem := (List.range' 0 1024).map (fun a => (a, v)) }

theorem lookup_filled (v : Byte) (n k a : Nat) (h1 : k ≤ a) (h2 : a < k + n) :
    Memory.lookup ((List.range' k n).map (fun a => (a, v))) a = some v := by
  induction n generalizing k with
  | zero => omega
  | succ n ih =>
    rw [List.range'_succ, List.map_cons, Memory.lookup]
    by_cases h : k = a
    · rw [if_pos h]
    · rw [if_neg h]; exact ih (k + 1) (by omega) (by omega)

theorem readByte_filled (v : Byte) (a : Nat) (h : a < 1024) : (filled v).readByte a = v := by
  have : Memory.lookup (filled v).mem a = some v := lookup_filled v 1024 0 a (Nat.zero_le _) (by omega)
  rw [State.readByte, this]

theorem imageSum_filled (v : Byte) :
    (symbols.map (fun b => word32 (filled v) ((filled v).operands.srcAddr.toNat + 4 * b.toNat))).sum
      = 256 * (16843009 * v.toNat) := by
  have h0 : (filled v).operands.srcAddr.toNat = 0 := rfl
  have h : ∀ b ∈ symbols, word32 (filled v) (0 + 4 * b.toNat) = 16843009 * v.toNat := by
    intro b _
    have hb := b.isLt
    rw [word32, readByte_filled v _ (by omega), readByte_filled v _ (by omega), readByte_filled v _ (by omega),
      readByte_filled v _ (by omega)]
    omega
  have hl : symbols.length = 256 := by rw [symbols, List.length_map, List.length_range]
  rw [h0, List.map_congr_left h, List.map_const', List.sum_replicate, hl, smul_eq_mul]

/-- A step of a state in which the given command has been issued. -/
theorem step_busyWith {s : State} (w : Word) (i : Instr) (hd : decode w = .ok i) (ht : s.hostTurns = 0) :
    step (busyWith w s) = exec i (busyWith w s) := by
  have he : (busyWith w s).engineMoves = true := by simp [State.engineMoves, busyWith, ht]
  have hc : decode (busyWith w s).cmd = .ok i := hd
  rw [step, if_pos he, engineStep, hc]

/-- The second core: it holds what a command wrote at the destination range of `s`, as its source range. -/
def receive (s t : State) : State :=
  { t with srcAddr := s.dstAddr, srcLen := t.outLen, dstAddr := 0xC00, dstCap := s.srcLen }

/-- The state after a SAVE_FREQ, with the saved image as its source range. -/
def reload (s t : State) : State := { t with srcAddr := s.dstAddr, srcLen := 1024, latched := none }

theorem readByte_reload (s t : State) (hl : s.latched = none) (j : Nat) :
    (reload s t).readByte ((reload s t).operands.srcAddr.toNat + j) = t.readByte (s.operands.dstAddr.toNat + j) := by
  rw [Laws.operands_idle hl]; rfl

theorem test_witness_DecodeAndEncodeAgree :
    Instr.wellFormed .unpack = true ∧ decode 0x0000000D#32 = .ok .unpack := by decide

theorem test_witness_DecodeIsTotalByField :
    (0x00000100#32).toNat / 256 ≠ 0 ∧ (0x0000000E#32).toNat / 256 = 0 ∧ 0x0D < (0x0000000E#32).toNat % 256
      ∧ (0x0000000D#32).toNat / 256 = 0 ∧ (0x0000000D#32).toNat % 256 ≤ 0x0D := by decide

theorem test_witness_ResetInputAbandonsTheCommand :
    ∃ s : State, s.host = .reset :: [] ∧ s.engineMoves = false ∧ s.status.busy = true :=
  ⟨{ busyWith 2 fresh with host := [.reset], hostTurns := 1 }, by decide +kernel⟩

theorem test_witness_EveryStepKeepsTheInvariant : ∃ s t : State, Inv s ∧ step s = .next t ∧ s.status.busy = true :=
  ⟨running, _, inv_running, (step_busyWith 5 .buildTree rfl rfl).trans (next_after _ _), rfl⟩

theorem test_witness_NoStepChangesMemSize : ∃ s t : State, step s = .next t :=
  ⟨running, _, (step_busyWith 5 .buildTree rfl rfl).trans (next_after _ _)⟩

theorem test_witness_StepRunsTheDecodedCommand :
    (running.engineMoves = true ∧ decode running.cmd = .ok .buildTree)
      ∧ (∃ s : State, s.engineMoves = false ∧ s.host = [.memRead 0xFFF])
      ∧ fresh.status.busy = false ∧ fresh.host = [] :=
  ⟨by decide +kernel, ⟨{ fresh with host := [.memRead 0xFFF] }, by decide +kernel⟩, by decide +kernel⟩

theorem test_witness_IllegalWordCompletesWithItsError :
    ((0x0000010A#32).toNat / 256 ≠ 0 ∧ 0x0D < (0x0000000E#32).toNat % 256) ∧ fresh.status.busy = false
      ∧ (busyWith 0x0E fresh).cmd = 0x0E ∧ (busyWith 0x0E fresh).engineMoves = true := by decide +kernel

theorem test_witness_IssuedCommandCompletes :
    ∃ s : State, s.status.busy = true ∧ ∀ op ∈ s.host, op = .wait
      ∨ (∃ off v, off % 4 = 0 ∧ off < 0x100 ∧ op = .regWrite 32 off v)
      ∨ (∃ off, off % 4 = 0 ∧ off < 0x100 ∧ op = .regRead 32 off) := by
  refine ⟨{ busyWith 2 fresh with host := [.wait, .regWrite 32 0x0FC 1, .regRead 32 0x0FC], hostTurns := 2 }, rfl, ?_⟩
  intro op h
  rcases List.mem_cons.mp h with h | h
  · exact Or.inl h
  · rcases List.mem_cons.mp h with h | h
    · exact Or.inr (Or.inl ⟨0x0FC, 1, by decide, by decide, h⟩)
    · exact Or.inr (Or.inr ⟨0x0FC, by decide, by decide, List.mem_singleton.mp h⟩)

theorem test_witness_RegisterMapIsAsListed : (0x08C : Nat) ≤ 0x08C := by decide

theorem test_witness_idle_port :
    fresh.status.busy = false ∧ (0x0FC : Nat) % 4 = 0 ∧ (0x0FC : Nat) < 0x100
      ∧ 0x0FC ∉ [0x008, 0x00C, 0x010, 0x014, 0x018, 0x01C, 0x020, 0x024, 0x028, 0x02C, 0x040, 0x048, 0x058, 0x080] := by
  decide +kernel

theorem test_witness_WritesWhileBusyAreDropped :
    running.status.busy = true ∧ (0x0FC : Nat) % 4 = 0 ∧ (0x0FC : Nat) < 0x100 ∧ (0x0FC : Nat) ≠ 0x00C
      ∧ (0x0FC : Nat) ≠ 0x010 ∧ (0x00C : Nat) % 4 = 0 ∧ (0x010 : Nat) % 4 = 0 := by decide +kernel

theorem test_witness_RegisterReadsReturn :
    running.status.busy = true ∧ fresh.status.busy = false
      ∧ RegName.partHigh ∈ [RegName.bitLen, .symCount, .outLen, .model, .total, .freqData, .nodeInfo, .nodeWeight,
          .treeInfo, .codeLen, .codeW 0, .codeW 1, .codeW 2, .codeW 3, .codeW 4, .codeW 5, .codeW 6, .codeW 7, .partLow,
          .partHigh]
      ∧ RegName.partIdx ∈ [RegName.id, .version, .cmd, .status, .irqEn, .sizeLimit, .srcAddr, .srcLen, .dstAddr,
          .dstCap, .freqIdx, .nodeIdx, .codeIdx, .partIdx]
      ∧ (0x03C : Nat) % 4 = 0 ∧ (0x08C : Nat) % 4 = 0 ∧ (0x0FC : Nat) < 0x100 := by decide +kernel

theorem test_witness_NodeWindowsReadTheArena :
    ({ coded with nodeIdx := 0 } : State).arena.node.get 0 .unused = .leaf 0x41 3
      ∧ coded.arena.node.get (4#9).toNat .unused = .internal 0 3 6
      ∧ coded.arena.node.get (5#9).toNat .unused = .unused
      ∧ ({ coded with nodeIdx := 511 } : State).nodeIdx = 511 := by decide +kernel

theorem test_witness_CodeWindowsReadTheCode :
    (coded.code.get (0x42#8).toNat []).length = 2 ∧ (32 * 7 + 31 : Nat) = 255 := by decide +kernel

theorem test_witness_InterruptFollowsDoneAndEnable :
    (∃ t, exec .nop fresh = .next t) ∧ (0x00010002#32).getLsbD 1 = true
      ∧ (∃ t, hostRegWrite 32 0x00C 0x00010002 fresh = .next t)
      ∧ fresh.status.busy = false ∧ (∃ t, hostRegWrite 32 0x008 0xFFFFFFFF fresh = .next t)
      ∧ (after .nop fresh).status.done = true ∧ (1#32).getLsbD 0 = true
      ∧ ∃ t, hostRegWrite 32 0x010 1 (after .nop fresh) = .next t :=
  ⟨⟨_, next_after _ _⟩, by decide, ⟨_, rfl⟩, by decide +kernel, ⟨_, rfl⟩, by decide +kernel, by decide, ⟨_, rfl⟩⟩

theorem test_witness_UndefinedHostActionsFault :
    ¬ ((16 : Nat) = 32 ∧ (0 : Nat) % 4 = 0 ∧ (0 : Nat) < 0x100)
      ∧ ¬ ((32 : Nat) = 32 ∧ (0x0FE : Nat) % 4 = 0 ∧ (0x0FE : Nat) < 0x100)
      ∧ ¬ ((32 : Nat) = 32 ∧ (0x100 : Nat) % 4 = 0 ∧ (0x100 : Nat) < 0x100)
      ∧ running.status.busy = true ∧ fresh.status.busy = false ∧ fresh.memTop.toNat + 1 ≤ 0x1000 := by decide +kernel

theorem test_witness_HostByteWriteThenRead : fresh.status.busy = false ∧ 0xFFF ≤ fresh.memTop.toNat := by
  decide +kernel

theorem test_witness_WideHostWriteIsLittleEndian :
    ∃ s : State, s.status.busy = false ∧ 0xFFC + 4 ≤ s.memTop.toNat + 1 ∧ s.host = wideMemWrite 0xFFC 4 0x01020304 :=
  ⟨{ fresh with host := wideMemWrite 0xFFC 4 0x01020304 }, by decide +kernel⟩

theorem test_witness_EarlyChecksInOrder :
    overLimit .arithDec { fresh with sizeLimit := 4, symCount := 5 } = true
      ∧ overLimit .scan { fresh with sizeLimit := 4, srcLen := 4, srcAddr := 0xFFD } = false
      ∧ badRange .scan { fresh with sizeLimit := 4, srcLen := 4, srcAddr := 0xFFD } = true
      ∧ badRange .pack { fresh with srcLen := 9, dstAddr := 8, dstCap := 1 } = true
      ∧ overLimit .huffEnc fresh = false ∧ badRange .huffEnc fresh = false ∧ bitMissing .huffEnc fresh = true := by
  decide +kernel

theorem test_witness_ErrorsArePrecise :
    (∃ t, exec .huffEnc fresh = .next t ∧ t.status.errcode = 5)
      ∧ ∃ t, exec .huffDec (coming modelABC [0x80] 1 0 1) = .next t ∧ t.status.errcode = 2 :=
  ⟨⟨_, next_after _ _, by decide +kernel⟩, ⟨_, next_after _ _, by decide +kernel⟩⟩

theorem test_witness_every_command_answers (i : Instr) : ∃ t, exec i fresh = .next t := ⟨_, next_after i fresh⟩

theorem test_witness_SuccessWritesOnlyItsRow :
    (∃ t, exec .huffEnc coded = .next t ∧ t.status.errcode = 0)
      ∧ (∃ t, exec .clearModel coded = .next t ∧ t.status.errcode = 0)
      ∧ Instr.huffEnc ∉ [Instr.clearModel, .scan, .loadFreq, .buildTree, .buildCodes, .buildPart]
      ∧ Instr.clearModel ∉ [Instr.huffEnc, .huffDec, .arithEnc]
      ∧ writesDest .huffEnc = true ∧ writesDest .clearModel = false :=
  ⟨⟨_, next_after _ _, by decide +kernel⟩, ⟨_, next_after _ _, by decide +kernel⟩, by decide⟩

theorem test_witness_ValidBitsFollowTheTable :
    (∃ t, exec .huffEnc fresh = .next t ∧ t.status.errcode ≠ 0)
      ∧ ∃ t, exec .buildTree coded = .next t ∧ t.status.errcode = 0 :=
  ⟨⟨_, next_after _ _, by decide +kernel⟩, ⟨_, next_after _ _, by decide +kernel⟩⟩

theorem test_witness_ScanCountsTheBody :
    earlyCode .scan { fresh with srcAddr := 0xFFF, srcLen := 2 } = some 6 ∧ earlyCode .scan coded = none := by
  decide +kernel

theorem test_witness_LoadFreqReadsTheImage :
    earlyCode .loadFreq { fresh with srcAddr := 0xFFF, srcLen := 2 } = some 6
      ∧ (earlyCode .loadFreq { fresh with srcLen := 1023 } = none
        ∧ ({ fresh with srcLen := 1023 } : State).operands.srcLen.toNat < 1024)
      ∧ (earlyCode .loadFreq (filled 0) = none ∧ 1024 ≤ (filled 0).operands.srcLen.toNat)
      ∧ earlyCode .loadFreq (filled 0xFF) = none ∧ 1024 ≤ (filled 0xFF).operands.srcLen.toNat := by decide +kernel

theorem test_witness_LoadFreqReadsTheImage_sum :
    (0xFFFFFFFF < (symbols.map (fun b => word32 (filled 0xFF)
        ((filled 0xFF).operands.srcAddr.toNat + 4 * b.toNat))).sum)
      ∧ (symbols.map (fun b => word32 (filled 0) ((filled 0).operands.srcAddr.toNat + 4 * b.toNat))).sum ≤ 0xFFFFFFFF := by
  rw [imageSum_filled, imageSum_filled]
  decide

theorem test_witness_SaveFreqWritesTheImage :
    earlyCode .saveFreq { fresh with dstAddr := 0xFFF, dstCap := 2 } = some 6
      ∧ (earlyCode .saveFreq { coded with dstCap := 1023 } = none
        ∧ ({ coded with dstCap := 1023 } : State).operands.dstCap.toNat < 1024)
      ∧ (earlyCode .saveFreq { coded with dstCap := 1024 } = none
        ∧ 1024 ≤ ({ coded with dstCap := 1024 } : State).operands.dstCap.toNat) := by decide +kernel

theorem test_witness_LoadOfSavedImageRestoresFreq :
    ∃ s t u : State, exec .saveFreq s = .next t ∧ t.status.errcode = 0 ∧ freqSum s.freq ≤ 0xFFFFFFFF
      ∧ (∀ j, j < 1024 → u.readByte (u.operands.srcAddr.toNat + j) = t.readByte (s.operands.dstAddr.toNat + j))
      ∧ 1024 ≤ u.operands.srcLen.toNat ∧ earlyCode .loadFreq u = none :=
  ⟨{ coded with dstCap := 1024 }, after .saveFreq { coded with dstCap := 1024 },
    reload { coded with dstCap := 1024 } (after .saveFreq { coded with dstCap := 1024 }), next_after _ _,
    by decide +kernel, by decide +kernel, fun j _ => readByte_reload _ _ (by decide +kernel) j, by decide +kernel,
    by decide +kernel⟩

theorem test_witness_BuildTreeMergesTheLeastPairs : freqSum coded.freq ≤ 0xFFFFFFFF := by decide +kernel

theorem test_witness_BuiltTreeIsStrictAndComplete :
    Inv coded ∧ (coded.model.treeValid = true ∧ coded.model.distinct ≠ 0
      ∧ coded.arena.nodeAt 4 = .internal 0 3 6 ∧ 4 < coded.arena.count.toNat
      ∧ follow coded.arena coded.arena.root.toNat [true, true] = some 1 ∧ coded.arena.nodeAt 1 = .leaf 0x42 2) :=
  ⟨inv_coded, by decide +kernel⟩

theorem test_witness_BuildCodesTakesThePaths :
    fresh.model.treeValid = false
      ∧ (Inv coded ∧ coded.model.treeValid = true ∧ count coded.freq 0x44 = 0 ∧ 2 ≤ coded.arena.count.toNat
        ∧ follow coded.arena coded.arena.root.toNat [true, true] = some 1 ∧ coded.arena.nodeAt 1 = .leaf 0x42 2)
      ∧ (Inv codedSingle ∧ codedSingle.model.treeValid = true ∧ codedSingle.arena.count.toNat = 1
        ∧ codedSingle.arena.nodeAt 0 = .leaf 0x41 4) :=
  ⟨by decide +kernel, ⟨inv_coded, by decide +kernel⟩, ⟨inv_codedSingle, by decide +kernel⟩⟩

theorem test_witness_CodesArePrefixFree :
    Inv coded ∧ (coded.model.codesValid = true ∧ (0x42 : Byte) ≠ 0x43 ∧ coded.codeAt 0x42 ≠ [] ∧ coded.codeAt 0x43 ≠ []) :=
  ⟨inv_coded, by decide +kernel⟩

theorem test_witness_HuffEncConcatenatesTheCodes :
    earlyCode .huffEnc fresh = some 5
      ∧ (earlyCode .huffEnc (coming modelABC [0x44] 0 0 1) = none
        ∧ ∃ b ∈ body (coming modelABC [0x44] 0 0 1), (coming modelABC [0x44] 0 0 1).codeAt b = [])
      ∧ (earlyCode .huffEnc cramped = none ∧ (∀ b ∈ body cramped, cramped.codeAt b ≠ [])
        ∧ cramped.operands.dstCap.toNat < (((body cramped).flatMap cramped.codeAt).length + 7) / 8)
      ∧ (earlyCode .huffEnc coded = none ∧ (∀ b ∈ body coded, coded.codeAt b ≠ [])
        ∧ ((body coded).flatMap coded.codeAt).length ≤ 0xFFFFFFFF
        ∧ (((body coded).flatMap coded.codeAt).length + 7) / 8 ≤ coded.operands.dstCap.toNat) := by decide +kernel

theorem test_witness_HuffDecFollowsTheTree_small :
    earlyCode .huffDec fresh = some 5
      ∧ (earlyCode .huffDec (coming modelABC [0x1F] 9 0 16) = none
        ∧ (coming modelABC [0x1F] 9 0 16).operands.srcLen.toNat < 2)
      ∧ (earlyCode .huffDec (coming modelNone [0x00] 1 0 0) = none ∧ (coming modelNone [0x00] 1 0 0).arena.count = 0)
      ∧ (earlyCode .huffDec (coming modelNone [] 0 0 0) = none ∧ (coming modelNone [] 0 0 0).operands.bitLen.toNat = 0)
      ∧ (earlyCode .huffDec (coming modelA [0x10] 4 0 4) = none ∧ (coming modelA [0x10] 4 0 4).arena.count = 1
        ∧ true ∈ stream (coming modelA [0x10] 4 0 4) 0 4)
      ∧ (earlyCode .huffDec (coming modelA [0x08] 4 0 4) = none ∧ (coming modelA [0x08] 4 0 4).arena.nodeAt 0 = .leaf 0x41 4
        ∧ true ∉ stream (coming modelA [0x08] 4 0 4) 0 4)
      ∧ (earlyCode .huffDec (coming modelA [0x08] 4 0 3) = none
        ∧ (coming modelA [0x08] 4 0 3).operands.dstCap.toNat < (coming modelA [0x08] 4 0 3).operands.bitLen.toNat) := by
  decide +kernel

theorem test_witness_HuffDecFollowsTheTree_ends_inside :
    earlyCode .huffDec (coming modelABC [0x80] 1 0 1) = none ∧ 2 ≤ (coming modelABC [0x80] 1 0 1).arena.count.toNat
      ∧ Spells (coming modelABC [0x80] 1 0 1).arena [] []
      ∧ follow (coming modelABC [0x80] 1 0 1).arena (coming modelABC [0x80] 1 0 1).arena.root.toNat [true] = some 3
      ∧ 3 ≠ (coming modelABC [0x80] 1 0 1).arena.root.toNat
      ∧ (coming modelABC [0x80] 1 0 1).arena.nodeAt 3 = .internal 2 1 3
      ∧ stream (coming modelABC [0x80] 1 0 1) 0 1 = [] ++ [true] :=
  ⟨by decide +kernel, by decide +kernel, .nil, by decide +kernel, by decide +kernel, by decide +kernel,
    by decide +kernel⟩

theorem test_witness_HuffDecFollowsTheTree_spells :
    earlyCode .huffDec (coming modelABC [0x00] 1 0 0) = none ∧ earlyCode .huffDec (coming modelABC [0x00] 1 0 1) = none
      ∧ 2 ≤ (coming modelABC [0x00] 1 0 1).arena.count.toNat
      ∧ Spells (coming modelABC [0x00] 1 0 1).arena [0x41] (stream (coming modelABC [0x00] 1 0 1) 0 1)
      ∧ stream (coming modelABC [0x00] 1 0 1) 0 1 = stream (coming modelABC [0x00] 1 0 0) 0 1 := by
  have h : stream (coming modelABC [0x00] 1 0 1) 0 1 = [false] ++ [] := by decide +kernel
  refine ⟨by decide +kernel, by decide +kernel, by decide +kernel, ?_, by decide +kernel⟩
  rw [h]
  exact .cons 0x41 3 0 [false] [] [] (by decide) (by decide +kernel) (by decide +kernel) .nil

theorem test_witness_HuffmanRoundTrip :
    ∃ s t u : State, Inv s ∧ exec .huffEnc s = .next t ∧ t.status.errcode = 0 ∧ u.arena = s.arena
      ∧ earlyCode .huffDec u = none
      ∧ (∀ j, j < t.outLen.toNat →
        u.readByte (u.operands.srcAddr.toNat + j) = t.readByte (s.operands.dstAddr.toNat + j))
      ∧ u.operands.bitLen = t.bitLen ∧ t.outLen.toNat ≤ u.operands.srcLen.toNat
      ∧ s.operands.srcLen.toNat ≤ u.operands.dstCap.toNat :=
  ⟨coded, after .huffEnc coded, receive coded (after .huffEnc coded), inv_coded, next_after _ _, by decide +kernel,
    by decide +kernel, by decide +kernel, by decide +kernel, by decide +kernel, by decide +kernel, by decide +kernel⟩

theorem test_witness_BuildPartAccumulates :
    0x3FFFFFFF < freqSum ((Table.replicate 256 0).set 0 0x40000000) ∧ freqSum ((Table.replicate 256 0).set 0 0x3FFFFFFF) ≤ 0x3FFFFFFF := by
  decide +kernel

theorem test_witness_NarrowStaysInside :
    ((0 : Nat) ≤ 2 ^ 32 - 1 ∧ (5 : Nat) < 6 ∧ (6 : Nat) ≤ 6 ∧ 6 ≤ 2 ^ 32 - 1 - 0 + 1)
      ∧ ((7 : Nat) ≤ 7 ∧ (0 : Nat) < 1 ∧ (1 : Nat) ≤ 1 ∧ 1 ≤ 7 - 7 + 1) := by decide

theorem test_witness_RenormalisationReachesItsExit :
    ∃ (d : Dec) (e : Enc), e.low ≤ e.high ∧ e.high ≤ 2 ^ 32 - 1 ∧ d.low = e.low ∧ d.high = e.high ∧ d.low ≤ d.value
      ∧ d.value ≤ d.high :=
  ⟨⟨0x897B425C, 0x9C71C719, 0x90000000, 32⟩, ⟨0x897B425C, 0x9C71C719, 1, []⟩, by decide⟩

theorem test_witness_ArithEncEmitsTheCode :
    earlyCode .arithEnc fresh = some 5
      ∧ (earlyCode .arithEnc (coming modelABC [] 0 0 0) = none ∧ body (coming modelABC [] 0 0 0) = [])
      ∧ (earlyCode .arithEnc (coming modelABC [0x41, 0x44] 0 0 16) = none
        ∧ ∃ b ∈ body (coming modelABC [0x41, 0x44] 0 0 16),
          cumAt (coming modelABC [0x41, 0x44] 0 0 16).cum (b.toNat + 1)
            = cumAt (coming modelABC [0x41, 0x44] 0 0 16).cum b.toNat)
      ∧ Inv coded ∧ Inv cramped
      ∧ (earlyCode .arithEnc coded = none ∧ earlyCode .arithEnc cramped = none ∧ body coded ≠ []
        ∧ ∀ b ∈ body coded, cumAt coded.cum (b.toNat + 1) ≠ cumAt coded.cum b.toNat)
      ∧ (arithEncodeFrom coded.cum Enc.start (body coded)).map (fun e => (terminated e).length) = some 10
      ∧ cramped.operands.dstCap.toNat < (10 + 7) / 8 ∧ (10 + 7) / 8 ≤ coded.operands.dstCap.toNat :=
  ⟨by decide +kernel, by decide +kernel, by decide +kernel, inv_coded, inv_cramped, by decide +kernel,
    by decide +kernel, by decide +kernel, by decide +kernel⟩

theorem test_witness_ArithDecAlwaysFindsItsSymbols :
    earlyCode .arithDec fresh = some 5
      ∧ (earlyCode .arithDec (coming modelABC [0x18] 10 6 16) = none
        ∧ (coming modelABC [0x18] 10 6 16).operands.srcLen.toNat < (10 + 7) / 8)
      ∧ (earlyCode .arithDec (coming modelABC [] 0 0 0) = none ∧ (coming modelABC [] 0 0 0).operands.symCount = 0)
      ∧ (earlyCode .arithDec (coming modelNone [] 0 1 1) = none ∧ cumAt (coming modelNone [] 0 1 1).cum 256 = 0)
      ∧ Inv coded ∧ Inv cramped
      ∧ (earlyCode .arithDec coded = none ∧ earlyCode .arithDec cramped = none ∧ coded.operands.symCount ≠ 0
        ∧ cumAt coded.cum 256 ≠ 0 ∧ (coded.operands.bitLen.toNat + 7) / 8 ≤ coded.operands.srcLen.toNat
        ∧ cramped.operands.dstCap.toNat < cramped.operands.symCount.toNat
        ∧ coded.operands.symCount.toNat ≤ coded.operands.dstCap.toNat) :=
  ⟨by decide +kernel, by decide +kernel, by decide +kernel, by decide +kernel, inv_coded, inv_cramped,
    by decide +kernel⟩

theorem test_witness_ArithmeticRoundTrip :
    ∃ s t u : State, Inv s ∧ exec .arithEnc s = .next t ∧ t.status.errcode = 0 ∧ u.cum = s.cum
      ∧ earlyCode .arithDec u = none
      ∧ (∀ j, j < t.outLen.toNat →
        u.readByte (u.operands.srcAddr.toNat + j) = t.readByte (s.operands.dstAddr.toNat + j))
      ∧ u.operands.bitLen = t.bitLen ∧ u.operands.symCount = s.operands.srcLen
      ∧ t.outLen.toNat ≤ u.operands.srcLen.toNat ∧ s.operands.srcLen.toNat ≤ u.operands.dstCap.toNat :=
  ⟨coded, after .arithEnc coded, receive coded (after .arithEnc coded), inv_coded, next_after _ _, by decide +kernel,
    by decide +kernel, by decide +kernel, by decide +kernel, by decide +kernel, by decide +kernel, by decide +kernel,
    by decide +kernel⟩

theorem test_witness_PackWritesOneBitPerByte :
    earlyCode .pack { fresh with srcLen := 9, dstAddr := 4, dstCap := 2 } = some 6
      ∧ (earlyCode .pack (ready [1, 2] 2) = none ∧ ∃ b ∈ body (ready [1, 2] 2), 1 < b.toNat)
      ∧ (earlyCode .pack (ready [1] 0) = none ∧ (∀ b ∈ body (ready [1] 0), b.toNat ≤ 1)
        ∧ (ready [1] 0).operands.dstCap.toNat < ((ready [1] 0).operands.srcLen.toNat + 7) / 8)
      ∧ (earlyCode .pack (ready [1] 1) = none ∧ (∀ b ∈ body (ready [1] 1), b.toNat ≤ 1)
        ∧ ((ready [1] 1).operands.srcLen.toNat + 7) / 8 ≤ (ready [1] 1).operands.dstCap.toNat) := by decide +kernel

theorem test_witness_UnpackWritesOneBytePerBit :
    earlyCode .unpack { fresh with srcLen := 2, dstAddr := 1, dstCap := 9 } = some 6
      ∧ (earlyCode .unpack (coming modelNone [0xB0] 9 0 9) = none
        ∧ (coming modelNone [0xB0] 9 0 9).operands.srcLen.toNat < ((coming modelNone [0xB0] 9 0 9).operands.bitLen.toNat + 7) / 8)
      ∧ (earlyCode .unpack (coming modelNone [0xB0] 8 0 7) = none
        ∧ (coming modelNone [0xB0] 8 0 7).operands.dstCap.toNat < (coming modelNone [0xB0] 8 0 7).operands.bitLen.toNat)
      ∧ (earlyCode .unpack (coming modelNone [0xB0] 8 0 8) = none
        ∧ ((coming modelNone [0xB0] 8 0 8).operands.bitLen.toNat + 7) / 8 ≤ (coming modelNone [0xB0] 8 0 8).operands.srcLen.toNat) := by
  decide +kernel

theorem test_witness_PackAndUnpackRoundTrip_pack :
    ∃ s t u : State, exec .pack s = .next t ∧ t.status.errcode = 0 ∧ earlyCode .unpack u = none
      ∧ (∀ j, j < t.outLen.toNat →
        u.readByte (u.operands.srcAddr.toNat + j) = t.readByte (s.operands.dstAddr.toNat + j))
      ∧ u.operands.bitLen = t.bitLen ∧ t.outLen.toNat ≤ u.operands.srcLen.toNat
      ∧ s.operands.srcLen.toNat ≤ u.operands.dstCap.toNat :=
  ⟨ready [1, 0, 1] 1, after .pack (ready [1, 0, 1] 1), receive (ready [1, 0, 1] 1) (after .pack (ready [1, 0, 1] 1)),
    next_after _ _, by decide +kernel, by decide +kernel, by decide +kernel, by decide +kernel, by decide +kernel,
    by decide +kernel⟩

theorem test_witness_PackAndUnpackRoundTrip_unpack :
    ∃ s t u : State, exec .unpack s = .next t ∧ t.status.errcode = 0 ∧ earlyCode .pack u = none
      ∧ (∀ j, j < t.outLen.toNat →
        u.readByte (u.operands.srcAddr.toNat + j) = t.readByte (s.operands.dstAddr.toNat + j))
      ∧ u.operands.srcLen = t.outLen ∧ (t.outLen.toNat + 7) / 8 ≤ u.operands.dstCap.toNat :=
  ⟨coming modelNone [0xB0, 0xFF] 9 0 9, after .unpack (coming modelNone [0xB0, 0xFF] 9 0 9),
    receive (coming modelNone [0xB0, 0xFF] 9 0 9) (after .unpack (coming modelNone [0xB0, 0xFF] 9 0 9)), next_after _ _,
    by decide +kernel, by decide +kernel, by decide +kernel, by decide +kernel, by decide +kernel⟩

theorem test_witness_CmdWriteIssuesAndLatches :
    fresh.status.busy = false ∧ decode 0x0000000D#32 = .ok .unpack ∧ decode 0x0000000E#32 = .error .opcodeUnmapped := by
  decide +kernel

theorem test_witness_WaitPollsStatus :
    ∃ s : State, s.engineMoves = false ∧ s.host = .wait :: [.memRead 0] ∧ s.status.busy = true :=
  ⟨{ busyWith 2 fresh with host := [.wait, .memRead 0], hostTurns := 1 }, by decide +kernel⟩

theorem test_witness_HostWritesNoTable :
    ∃ s t : State, s.engineMoves = false ∧ s.host = .memRead 0xFFF :: [] ∧ HostOp.memRead 0xFFF ≠ .reset
      ∧ step s = .next t ∧ ∀ a v, HostOp.memRead 0xFFF ≠ .memWrite a v :=
  ⟨{ fresh with host := [.memRead 0xFFF] }, _, by decide +kernel, by decide +kernel, by decide, rfl,
    fun _ _ h => by cases h⟩

/-- The clauses on BIT_LEN and SYM_COUNT: each register written while the other is not, and both while BUSY = 1. -/
theorem test_witness_HostWritesNoTable_results :
    (∃ s t : State, s.engineMoves = false ∧ s.host = [.regWrite 32 0x028 9] ∧ step s = .next t
      ∧ t.bitLen = 9 ∧ t.symCount = s.symCount)
      ∧ (∃ s t : State, s.engineMoves = false ∧ s.host = [.regWrite 32 0x02C 9] ∧ step s = .next t
        ∧ t.symCount = 9 ∧ t.bitLen = s.bitLen)
      ∧ ∃ s t : State, s.engineMoves = false ∧ s.host = [.regWrite 32 0x028 9] ∧ s.status.busy = true
        ∧ step s = .next t ∧ t.bitLen = s.bitLen :=
  ⟨⟨{ fresh with host := [.regWrite 32 0x028 9] }, _, by decide +kernel, rfl, rfl, by decide +kernel, by decide +kernel⟩,
    ⟨{ fresh with host := [.regWrite 32 0x02C 9] }, _, by decide +kernel, rfl, rfl, by decide +kernel, by decide +kernel⟩,
    ⟨{ busyWith 2 fresh with host := [.regWrite 32 0x028 9], hostTurns := 1 }, _, by decide +kernel, rfl,
      by decide +kernel, rfl, by decide +kernel⟩⟩

theorem test_witness_RetryRaisesTheSameError :
    ∃ s t : State, Inv s ∧ exec .huffEnc s = .next t ∧ t.status.errcode ≠ 0 :=
  ⟨cramped, _, inv_cramped, next_after _ _, by decide +kernel⟩

/-- The source range of `coded` is read, and what lies behind it differs. -/
theorem test_witness_CommandsReadOnlyTheirSource :
    readsSource .scan = true ∧ coded.mem ≠ Memory.write coded.mem 6 0x44
      ∧ ∀ x, x < 6 → ({ coded with mem := Memory.write coded.mem 6 0x44 } : State).readByte x = coded.readByte x := by
  decide +kernel

theorem test_witness_ErrorsArePrecise_illegal : decode (busyWith 0x0E fresh).cmd = .error .opcodeUnmapped := by
  decide +kernel

theorem test_witness_TablesMatchTheCounts :
    Inv coded ∧ (coded.model.treeValid = true ∧ coded.model.codesValid = true ∧ coded.model.partValid = true
      ∧ 2 < (present coded.freq).length ∧ coded.arena.nodeAt 4 = .internal 0 3 6 ∧ 4 < coded.arena.count.toNat
      ∧ coded.codeAt 0x42 ≠ [] ∧ coded.codeAt 0x43 ≠ []) :=
  ⟨inv_coded, by decide +kernel⟩

theorem test_witness_PackIsTheEncodersPacking :
    ∃ s t u : State, exec .huffEnc s = .next t ∧ t.status.errcode = 0 ∧ earlyCode .pack u = none
      ∧ u.operands.srcLen = t.bitLen
      ∧ (∀ j, j < t.bitLen.toNat → u.readByte (u.operands.srcAddr.toNat + j)
        = if streamBit t s.operands.dstAddr.toNat j then 1 else 0)
      ∧ t.outLen.toNat ≤ u.operands.dstCap.toNat :=
  ⟨coded, after .huffEnc coded, ready [0, 0, 0, 1, 1, 1, 1, 1, 0] 2, next_after _ _, by decide +kernel,
    by decide +kernel, by decide +kernel, by decide +kernel, by decide +kernel⟩

end Sys2Proof.Tests
end

section
/-! The inversion lemmas of `step` and of the host's operations, and that no step changes MEM_SIZE
(spec/00_scope.md R11). -/

namespace Sys2Proof.Proofs

open Sys2Proof Sys2Proof.Machine Sys2Proof.Laws

/-! ### What one step can do -/

/-- THE inversion lemma of `step`: ENGINE completes the command, or nothing is left to do, or HOST performs its next
operation. -/
theorem step_cases {s t : State} (h : step s = .next t) :
    (s.engineMoves = true ∧ engineStep s = .next t)
      ∨ (s.engineMoves = false ∧ s.host = [] ∧ t = s)
      ∨ (s.engineMoves = false ∧ ∃ op rest, s.host = op :: rest ∧ hostStep op rest s = .next t) := by
  unfold step at h
  cases hm : s.engineMoves with
  | true => exact Or.inl ⟨rfl, by simpa [hm] using h⟩
  | false =>
    cases hh : s.host with
    | nil =>
      have hst : s = t := by simpa [hm, hh] using h
      exact Or.inr (Or.inl ⟨rfl, rfl, hst.symm⟩)
    | cons op rest => exact Or.inr (Or.inr ⟨rfl, op, rest, rfl, by simpa [hm, hh] using h⟩)

theorem engineStep_cases {s t : State} (h : engineStep s = .next t) :
    (∃ i, decode s.cmd = .ok i ∧ exec i s = .next t)
      ∨ (∃ e, decode s.cmd = .error e ∧ t = s.complete (some .illegalCommand)) := by
  unfold engineStep at h
  cases hd : decode s.cmd with
  | ok i => exact Or.inl ⟨i, rfl, by simpa [hd] using h⟩
  | error e =>
    rw [hd] at h
    cases h
    exact Or.inr ⟨e, rfl, rfl⟩

theorem hostRegWrite_eq_next_iff {width off : Nat} {v : Word} {s t : State} :
    hostRegWrite width off v s = .next t ↔ regAccessOk width off = true ∧ t = s.writeSlot (registerAt off) v := by
  unfold hostRegWrite
  cases regAccessOk width off <;> simp [eq_comm]

theorem hostRegRead_eq_next_iff {width off : Nat} {s t : State} :
    hostRegRead width off s = .next t ↔ regAccessOk width off = true ∧ t = s.afterRegRead off := by
  unfold hostRegRead
  cases regAccessOk width off <;> simp [eq_comm]

theorem hostMemWrite_eq_next_iff {a : Nat} {v : Byte} {s t : State} :
    hostMemWrite a v s = .next t ↔ s.memFault a = none ∧ t = s.writeByte a v := by
  unfold hostMemWrite
  cases s.memFault a <;> simp [eq_comm]

theorem hostMemRead_eq_next_iff {a : Nat} {s t : State} :
    hostMemRead a s = .next t
      ↔ s.memFault a = none ∧ t = { s with replies := .mem a (s.readByte a) :: s.replies } := by
  unfold hostMemRead
  cases s.memFault a <;> simp [eq_comm]

/-! ### MEM_SIZE under each operation -/

@[simp] theorem resetInput_memTop (s : State) : s.resetInput.memTop = s.memTop := rfl

@[simp] theorem writeIdle_memTop (s : State) (r : RegName) (v : Word) : (s.writeIdle r v).memTop = s.memTop := by
  cases r <;> rfl

@[simp] theorem writeSlot_memTop (s : State) (r : Option RegName) (v : Word) :
    (s.writeSlot r v).memTop = s.memTop := by
  unfold State.writeSlot
  split
  · split <;> rfl
  · cases r with
    | none => rfl
    | some r => exact writeIdle_memTop s r v

/-- No command changes MEM_SIZE: an error ends it as `complete` does, and a commit keeps its surroundings. -/
theorem exec_memTop {i : Instr} {s t : State} (h : exec i s = .next t) : t.memTop = s.memTop := by
  rcases exec_cases i s with ⟨e, _, he⟩ | ⟨_, ⟨e, _, he⟩ | ⟨e, _, he⟩ | ⟨u, hb, he⟩⟩ <;>
    obtain rfl := Host.Outcome.next.inj (he.symm.trans h)
  · rfl
  · rfl
  · rfl
  · exact (bodyOf_commit_same hb).memTop

theorem engineStep_memTop {s t : State} (h : engineStep s = .next t) : t.memTop = s.memTop := by
  rcases engineStep_cases h with ⟨i, _, he⟩ | ⟨_, _, rfl⟩
  · exact exec_memTop he
  · rfl

theorem hostOp_memTop {op : HostOp} {s t : State} (h : hostOp op s = .next t) : t.memTop = s.memTop := by
  cases op with
  | regWrite width off v =>
    obtain ⟨_, rfl⟩ := hostRegWrite_eq_next_iff.mp h
    exact writeSlot_memTop s (registerAt off) v
  | regRead width off =>
    obtain ⟨_, rfl⟩ := hostRegRead_eq_next_iff.mp h
    rfl
  | memWrite a v =>
    obtain ⟨_, rfl⟩ := hostMemWrite_eq_next_iff.mp h
    rfl
  | memRead a =>
    obtain ⟨_, rfl⟩ := hostMemRead_eq_next_iff.mp h
    rfl
  | wait => cases h; rfl
  | reset => cases h; rfl

theorem hostStep_memTop {op : HostOp} {rest : List HostOp} {s t : State} (h : hostStep op rest s = .next t) :
    t.memTop = s.memTop :=
  hostOp_memTop (s := { s with host := rest, hostTurns := s.hostTurns - 1 }) h

/-- Settles O8: a completion keeps MEM_SIZE (`engineStep_memTop`), and so does every host operation
(`hostStep_memTop`). -/
theorem noStepChangesMemSize : Obligations.NoStepChangesMemSize := by
  intro s t h
  rcases step_cases h with ⟨_, he⟩ | ⟨_, _, rfl⟩ | ⟨_, op, rest, _, hs⟩
  · exact engineStep_memTop he
  · rfl
  · exact hostStep_memTop hs

end Sys2Proof.Proofs
end

section
/-! What the tables are after the commands that make them: counts and their sums (spec/41_frequency.md R180, R181), the
partition (43_arith.md R230), the arena (42_huffman.md R200) and the code table (R204). -/

namespace Sys2Proof.Proofs

open Sys2Proof Sys2Proof.Machine Sys2Proof.Laws

/-! ### Counts and their sums -/

theorem sum_set_succ {l : List Nat} {i : Nat} (h : i < l.length) : (l.set i (l.getD i 0 + 1)).sum = l.sum + 1 := by
  induction l generalizing i with
  | nil => simp at h
  | cons x xs ih =>
    cases i with
    | zero => simp; omega
    | succ i => simpa [Nat.add_assoc] using ih (by simpa using h)

theorem countSum_bumpCount (f : Table Nat 256) (b : Byte) : countSum (bumpCount f b) = countSum f + 1 :=
  sum_set_succ (by rw [f.size_eq]; exact b.isLt)

theorem countSum_foldl_bumpCount (body : List Byte) (f : Table Nat 256) :
    countSum (body.foldl bumpCount f) = countSum f + body.length := by
  induction body generalizing f with
  | nil => rfl
  | cons b rest ih => rw [List.foldl_cons, ih, countSum_bumpCount, List.length_cons]; omega

/-- SCAN counts every byte of the body once. -/
theorem countSum_scanCounts (body : List Byte) : countSum (scanCounts body) = body.length := by
  have h0 : countSum (Table.replicate 256 0) = 0 := List.sum_replicate 256 0
  rw [scanCounts, countSum_foldl_bumpCount, h0, Nat.zero_add]

theorem countDistinct_le (f : Table Nat 256) : countDistinct f ≤ 256 :=
  List.countP_le_length.trans_eq f.size_eq

theorem entry_le_countSum {f : Table Nat 256} {c : Nat} (h : c ∈ f.entries) : c ≤ countSum f :=
  List.single_le_sum (fun _ _ => Nat.zero_le _) c h

/-- Counts whose sum fits in a word are the words FREQ holds. -/
theorem toNat_map_commitFreq {f : Table Nat 256} (h : countSum f ≤ 0xFFFFFFFF) :
    (f.map (BitVec.ofNat 32)).entries.map BitVec.toNat = f.entries := by
  rw [Table.map, List.map_map]
  refine (List.map_congr_left fun c hc => ?_).trans (List.map_id _)
  have hle := entry_le_countSum hc
  simp only [Function.comp_apply, BitVec.toNat_ofNat, id]
  omega

/-- The present symbols of FREQ are those with a count above 0. -/
theorem countP_map_commitFreq {f : Table Nat 256} (h : countSum f ≤ 0xFFFFFFFF) :
    (f.map (BitVec.ofNat 32)).entries.countP (fun c => decide (c ≠ 0)) = countDistinct f := by
  rw [Table.map, List.countP_map, countDistinct]
  refine List.countP_congr fun c hc => ?_
  have hle := entry_le_countSum hc
  have hc : BitVec.ofNat 32 c = 0#32 ↔ c = 0 := by
    rw [← BitVec.toNat_inj, BitVec.toNat_ofNat, BitVec.toNat_ofNat]
    omega
  simp only [Function.comp_apply, decide_eq_true_eq]
  exact (not_congr hc).trans Nat.pos_iff_ne_zero.symm

/-- The empty FREQ sums to 0. -/
theorem sum_replicate_zero (n : Nat) : ((Table.replicate n (0 : Word)).entries.map BitVec.toNat).sum = 0 := by
  rw [Table.replicate, List.map_replicate, List.sum_replicate]
  exact Nat.mul_zero n

/-- The empty FREQ has no present symbol. -/
theorem countP_replicate_zero (n : Nat) :
    (Table.replicate n (0 : Word)).entries.countP (fun c => decide (c ≠ 0)) = 0 := by
  simp only [Table.replicate, List.countP_eq_zero, List.mem_replicate]
  rintro c ⟨_, rfl⟩
  decide

/-! ### The tables the build commands make -/

theorem runningSums_getD {counts : List Nat} {acc i : Nat} (h : i ≤ counts.length) :
    (runningSums acc counts).getD i 0 = acc + (counts.take i).sum := by
  induction counts generalizing acc i with
  | nil =>
    obtain rfl : i = 0 := by simpa using h
    simp [runningSums]
  | cons c rest ih =>
    cases i with
    | zero => simp [runningSums]
    | succ i =>
      have := ih (acc := acc + c) (i := i) (by simpa using h)
      simpa [runningSums, Nat.add_assoc] using this

/-- C[i] is the sum of the first i counts. -/
theorem partitionSums_getD (freq : Table Word 256) {i : Nat} (h : i ≤ 256) :
    (partitionSums freq).getD i 0 = ((freq.entries.map BitVec.toNat).take i).sum := by
  rw [partitionSums, runningSums_getD (by rw [List.length_map, freq.size_eq]; exact h), Nat.zero_add]

/-- C[256] is the sum of all counts. -/
theorem partitionTotal_eq_sum (freq : Table Word 256) :
    partitionTotal freq = (freq.entries.map BitVec.toNat).sum := by
  rw [partitionTotal, partitionSums_getD freq le_rfl,
    List.take_of_length_le (by rw [List.length_map, freq.size_eq])]

theorem take_sum_le_partitionTotal (freq : Table Word 256) (i : Nat) :
    ((freq.entries.map BitVec.toNat).take i).sum ≤ partitionTotal freq := by
  rw [partitionTotal_eq_sum]
  exact (List.take_sublist _ _).sum_le_sum fun _ _ => Nat.zero_le _

/-- CUM[i] of a partition the coder accepts is the sum of the first i counts. -/
theorem cumAt_buildCum {freq : Table Word 256} (ht : partitionTotal freq ≤ maxTotal) {i : Nat} (h : i ≤ 256) :
    cumAt (buildCum freq) i = ((freq.entries.map BitVec.toNat).take i).sum := by
  have hle := take_sum_le_partitionTotal freq i
  rw [maxTotal] at ht
  rw [cumAt, buildCum, table_get_tabulate _ _ (by omega), partitionSums_getD freq h, BitVec.toNat_ofNat]
  omega

theorem cumAt_buildCum_succ {freq : Table Word 256} (ht : partitionTotal freq ≤ maxTotal) {i : Nat} (h : i < 256) :
    cumAt (buildCum freq) (i + 1) = cumAt (buildCum freq) i + (freq.get i 0).toNat := by
  have hl : i < freq.entries.length := by rw [freq.size_eq]; exact h
  rw [cumAt_buildCum ht (by omega), cumAt_buildCum ht (by omega), List.sum_take_succ _ _ (by simpa using hl)]
  simp [Table.get, hl]

theorem presentSymbols_length_le (freq : Table Word 256) : (presentSymbols freq).length ≤ 256 :=
  (List.length_filter_le _ _).trans (by simp [allSymbols])

theorem extractLeast_none {active : List Active} (h : extractLeast active = none) : active = [] := by
  cases active with
  | nil => rfl
  | cons x xs =>
    simp only [extractLeast] at h
    split at h
    · cases h
    · split at h <;> cases h

/-- The node extracted and the nodes left are the active nodes, in another order. -/
theorem extractLeast_perm {active rest : List Active} {m : Active} (h : extractLeast active = some (m, rest)) :
    (m :: rest).Perm active := by
  induction active generalizing m rest with
  | nil => cases h
  | cons x xs ih =>
    simp only [extractLeast] at h
    split at h
    · rename_i hx
      cases h
      rw [extractLeast_none hx]
    · rename_i m' rest' hx
      split at h
      · cases h
        exact List.Perm.refl _
      · cases h
        exact (List.Perm.swap x m rest').trans ((ih hx).cons x)

/-- Every merge takes two active nodes and makes one, so n active nodes give at most n - 1 more. -/
theorem mergeLoop_length_le (fuel : Nat) (nodes : List Node) (active : List Active) :
    (mergeLoop fuel nodes active).length ≤ nodes.length + (active.length - 1) := by
  induction fuel generalizing nodes active with
  | zero => exact Nat.le_add_right _ _
  | succ fuel ih =>
    simp only [mergeLoop]
    split
    · exact Nat.le_add_right _ _
    · rename_i a active1 ha
      split
      · exact Nat.le_add_right _ _
      · rename_i b active2 hb
        refine (ih _ _).trans ?_
        have h1 := (extractLeast_perm ha).length_eq
        have h2 := (extractLeast_perm hb).length_eq
        simp only [List.length_append, List.length_cons, List.length_nil] at h1 h2 ⊢
        omega

theorem treeNodes_length_le (freq : Table Word 256) : (treeNodes freq).length ≤ 511 := by
  have hk := presentSymbols_length_le freq
  have := mergeLoop_length_le (presentSymbols freq).length (leafNodes (presentSymbols freq))
    (leafActives (presentSymbols freq))
  simp only [leafNodes, leafActives, List.length_map, List.length_zip, List.length_range, Nat.min_self] at this
  rw [treeNodes, leafNodes, leafActives]
  omega

theorem arenaOf_count {nodes : List Node} (h : nodes.length ≤ 511) : (arenaOf nodes).count.toNat = nodes.length := by
  simp only [arenaOf, BitVec.toNat_ofNat]
  omega

theorem arenaOf_nodeAt {nodes : List Node} (h : nodes.length ≤ 511) (i : Nat) :
    (arenaOf nodes).nodeAt i = nodes.getD i .unused := by
  rcases Nat.lt_or_ge i 511 with hi | hi
  · exact table_get_tabulate _ _ hi
  · rw [List.getD_eq_default _ _ (h.trans hi)]
    exact table_get_tabulate_past _ _ hi

/-- A walk lists the leaves less than `fuel` below its start, each with the path to it. -/
theorem mem_walkTree {t : Arena} {fuel i : Nat} {path : Bits} {x : Byte × Bits} :
    x ∈ walkTree t fuel i path ↔ ∃ q n w, q.length < fuel ∧ x.2 = path ++ q ∧ Claims.follow t i q = some n
      ∧ t.nodeAt n = .leaf x.1 w := by
  induction fuel generalizing i path with
  | zero => simp [walkTree]
  | succ fuel ih =>
    simp only [walkTree]
    split
    · rename_i sym w hi
      constructor
      · intro h
        obtain rfl := List.mem_singleton.mp h
        exact ⟨[], i, w, by simp, by simp, rfl, hi⟩
      · rintro ⟨q, n, w', -, hx, hq, hn⟩
        cases q with
        | nil =>
          obtain rfl : i = n := Option.some.inj hq
          obtain ⟨rfl, -⟩ := Node.leaf.inj (hi.symm.trans hn)
          exact List.mem_singleton.mpr (Prod.ext rfl (hx.trans (List.append_nil _)))
        | cons b q => simp [Claims.follow, hi] at hq
    · rename_i l r w hi
      rw [List.mem_append, ih, ih]
      constructor
      · rintro (⟨q, n, w', hl, hx, hq, hn⟩ | ⟨q, n, w', hl, hx, hq, hn⟩)
        · exact ⟨false :: q, n, w', by simpa using hl, by simpa using hx, by simpa [Claims.follow, hi] using hq, hn⟩
        · exact ⟨true :: q, n, w', by simpa using hl, by simpa using hx, by simpa [Claims.follow, hi] using hq, hn⟩
      · rintro ⟨q, n, w', hl, hx, hq, hn⟩
        cases q with
        | nil =>
          obtain rfl : i = n := Option.some.inj hq
          rw [hi] at hn
          cases hn
        | cons b q =>
          simp only [Claims.follow, hi] at hq
          cases b with
          | false => exact Or.inl ⟨q, n, w', by simpa using hl, by simpa using hx, hq, hn⟩
          | true => exact Or.inr ⟨q, n, w', by simpa using hl, by simpa using hx, hq, hn⟩
    · rename_i hi
      refine ⟨fun h => (List.not_mem_nil h).elim, ?_⟩
      rintro ⟨q, n, w', -, -, hq, hn⟩
      cases q with
      | nil =>
        obtain rfl : i = n := Option.some.inj hq
        rw [hi] at hn
        cases hn
      | cons b q => simp [Claims.follow, hi] at hq

theorem assignedCodes_length_le {t : Arena} {x : Byte × Bits} (h : x ∈ assignedCodes t) : x.2.length ≤ 255 := by
  unfold assignedCodes at h
  split at h
  · cases h
  · split at h
    · split at h
      · obtain rfl := List.mem_singleton.mp h
        simp
      · cases h
      · cases h
    · obtain ⟨q, _, _, hl, hx, _⟩ := mem_walkTree.mp h
      rw [hx, List.nil_append]
      omega

/-- An entry of a table written entry by entry: as before, when no write names it, or one of the values written. -/
theorem foldl_set_get {α : Type} (l : List (Byte × α)) (c : Table α 256) (b : Byte) (d : α) :
    ((∀ v, (b, v) ∉ l) ∧ (l.foldl (fun c x => c.set x.1.toNat x.2) c).get b.toNat d = c.get b.toNat d)
      ∨ (b, (l.foldl (fun c x => c.set x.1.toNat x.2) c).get b.toNat d) ∈ l := by
  induction l generalizing c with
  | nil => exact Or.inl ⟨fun _ => List.not_mem_nil, rfl⟩
  | cons x xs ih =>
    rw [List.foldl_cons]
    rcases ih (c.set x.1.toNat x.2) with ⟨hno, heq⟩ | hmem
    · rw [heq, table_get_set _ _ _ x.1.isLt]
      by_cases hb : b = x.1
      · subst hb
        rw [if_pos rfl]
        exact Or.inr List.mem_cons_self
      · rw [if_neg (fun h => hb (BitVec.eq_of_toNat_eq h))]
        refine Or.inl ⟨fun v hv => ?_, rfl⟩
        rcases List.mem_cons.mp hv with hv | hv
        · exact hb (congrArg Prod.fst hv)
        · exact hno v hv
    · exact Or.inr (List.mem_cons_of_mem _ hmem)

/-- A symbol's code in the table BUILD_CODES makes: empty when none is assigned, or one that is assigned. -/
theorem buildCodeTable_get (t : Arena) (b : Byte) :
    ((∀ c, (b, c) ∉ assignedCodes t) ∧ (buildCodeTable t).get b.toNat [] = [])
      ∨ (b, (buildCodeTable t).get b.toNat []) ∈ assignedCodes t := by
  rcases foldl_set_get (assignedCodes t) (Table.replicate 256 []) b [] with ⟨hno, heq⟩ | hmem
  · exact Or.inl ⟨hno, heq.trans (table_get_replicate _ _ _)⟩
  · exact Or.inr hmem

theorem buildCodeTable_length_le (t : Arena) (b : Byte) : ((buildCodeTable t).get b.toNat []).length ≤ 255 := by
  rcases buildCodeTable_get t b with ⟨_, h⟩ | h
  · rw [h]
    exact Nat.zero_le _
  · exact assignedCodes_length_le h

end Sys2Proof.Proofs
end

section
/-! The invariant `Inv` (spec/10_state.md R47, R72 to R77): it holds after reset, and every completion and every
host operation keeps it. A completion takes P away, so a command's effects are shown against
`Inv (t.complete none)`: between the commit and the completion P may differ from BIT_LEN and SYM_COUNT. -/

namespace Sys2Proof.Proofs

open Sys2Proof Sys2Proof.Machine Sys2Proof.Laws

/-! ### Reset -/

/-- Settles O6: the tables are empty, MEM lists nothing and no command runs. -/
theorem resetSatisfiesTheInvariant : Obligations.ResetSatisfiesTheInvariant := by
  intro top
  exact
    { memCanonical := rfl
      memInside := fun _ h => by cases h
      errIffCode := by simp
      errcodeKnown := Nat.zero_le _
      latchedIffBusy := rfl
      latchedCurrent := fun _ h => by cases h
      busyClean := fun h => by cases h
      totalIsSum := (sum_replicate_zero 256).symm
      distinctIsCount := (countP_replicate_zero 256).symm
      treeBuilt := fun h => by cases h
      codesBuilt := fun h => by cases h
      partBuilt := fun h => by cases h
      arenaUnused := fun i _ => table_get_replicate 511 i Node.unused
      arenaCount := Nat.zero_le _
      codeShort := fun b => (congrArg List.length (table_get_replicate 256 b.toNat [])).trans_le (Nat.zero_le _)
      cumStart := congrArg BitVec.toNat (table_get_replicate 257 0 0)
      cumRises := fun i _ => by
        rw [resetAt_cum, cumAt, cumAt, table_get_replicate, table_get_replicate] }

theorem inv_resetInput (s : State) : Inv s.resetInput := { resetSatisfiesTheInvariant s.memTop with }

/-! ### Completion -/

theorem isSome_iff_outcomeCode_ne (e : Option CmdError) : e.isSome = true ↔ outcomeCode e ≠ 0 := by
  cases e with
  | none => decide
  | some e => cases e <;> decide

theorem outcomeCode_le (e : Option CmdError) : (outcomeCode e).toNat ≤ 8 := by
  cases e with
  | none => decide
  | some e => cases e <;> decide

/-- A completion keeps the invariant, whatever its outcome. -/
theorem inv_complete {s : State} (h : Inv s) (e : Option CmdError) : Inv (s.complete e) :=
  { h with
    errIffCode := isSome_iff_outcomeCode_ne e
    errcodeKnown := outcomeCode_le e
    latchedIffBusy := rfl
    latchedCurrent := fun _ hp => by cases hp
    busyClean := fun hb => by cases hb }

/-- A byte string stored inside MEM, with any results beside it, keeps the invariant through the completion. -/
theorem inv_complete_store {s : State} (h : Inv s) (a : Nat) (bs : List Byte) (hin : a + bs.length ≤ s.memSize)
    (outLen bitLen symCount : Word) (draws : Nat) (e : Option CmdError) :
    Inv (State.complete { s with
      mem := Memory.writeBytes s.mem a bs
      outLen := outLen
      bitLen := bitLen
      symCount := symCount
      draws := draws } e) :=
  { inv_complete h e with
    memCanonical := wf_writeBytes a bs h.memCanonical
    memInside := fun c hc => by
      rcases mem_writeBytes hc with hr | hc
      · exact Nat.lt_of_lt_of_le hr.2 hin
      · exact h.memInside c hc
    latchedCurrent := fun _ hp => by cases hp }

/-- An error of step 6 or 7 draws bytes inside MEM only. -/
theorem inv_raiseLate {s : State} (h : Inv s) (p : Operands) (hin : p.dstAddr.toNat + p.dstCap.toNat ≤ s.memSize)
    (e : CmdError) : Inv ((s.scrambleDst p).complete (some e)) :=
  inv_complete_store h p.dstAddr.toNat (s.drawnBytes p.dstCap.toNat) (by simpa [State.drawnBytes] using hin)
    s.outLen s.bitLen s.symCount _ (some e)

/-- CommitFreq of counts whose sum fits in TOTAL (41_frequency.md R181). -/
theorem inv_complete_commitFreq {s : State} (h : Inv s) {f : Table Nat 256} (hf : countSum f ≤ 0xFFFFFFFF) :
    Inv ((s.commitFreq f).complete none) :=
  { inv_complete h none with
    totalIsSum := by
      simp only [complete_total, commitFreq_total, complete_freq, commitFreq_freq, toNat_map_commitFreq hf,
        BitVec.toNat_ofNat]
      exact Nat.mod_eq_of_lt (Nat.lt_succ_of_le hf)
    distinctIsCount := by
      simp only [complete_model, commitFreq_model, complete_freq, commitFreq_freq, countP_map_commitFreq hf]
      exact Nat.mod_eq_of_lt ((countDistinct_le f).trans_lt (by decide))
    treeBuilt := fun hv => by cases hv
    codesBuilt := fun hv => by cases hv
    partBuilt := fun hv => by cases hv }

/-- CLEAR_MODEL leaves the tables and MODEL as after reset. -/
theorem inv_complete_clearModel {s : State} (h : Inv s) : Inv (s.clearModel.complete none) :=
  have hr := resetSatisfiesTheInvariant s.memTop
  { inv_complete h none with
    totalIsSum := hr.totalIsSum
    distinctIsCount := hr.distinctIsCount
    treeBuilt := hr.treeBuilt
    codesBuilt := hr.codesBuilt
    partBuilt := hr.partBuilt
    arenaUnused := hr.arenaUnused
    arenaCount := hr.arenaCount
    codeShort := hr.codeShort
    cumStart := hr.cumStart
    cumRises := hr.cumRises }

theorem inv_complete_buildTree {s t : State} (h : Inv s) (hb : buildTreeBody s.operands s = .commit t) :
    Inv (t.complete none) := by
  cases hb
  have hl := treeNodes_length_le s.freq
  exact
    { inv_complete h none with
      treeBuilt := fun _ => rfl
      codesBuilt := fun hv => by cases hv
      arenaUnused := fun i hi => by
        rw [complete_arena, buildArena, arenaOf_count hl] at hi
        exact (arenaOf_nodeAt hl i).trans (List.getD_eq_default _ _ hi)
      arenaCount := (arenaOf_count hl).trans_le hl }

theorem inv_complete_buildCodes {s t : State} (h : Inv s) (hv : s.model.treeValid = true)
    (hb : buildCodesBody s.operands s = .commit t) : Inv (t.complete none) := by
  cases hb
  exact
    { inv_complete h none with
      codesBuilt := fun _ => ⟨hv, rfl⟩
      codeShort := buildCodeTable_length_le s.arena }

theorem inv_complete_buildPart {s t : State} (h : Inv s) (hb : buildPartBody s.operands s = .commit t) :
    Inv (t.complete none) := by
  simp only [buildPartBody] at hb
  split at hb
  · cases hb
  · rename_i ht
    have ht : partitionTotal s.freq ≤ maxTotal := by omega
    cases hb
    exact
      { inv_complete h none with
        partBuilt := fun _ => ⟨rfl, ht⟩
        cumStart := cumAt_buildCum ht (Nat.zero_le _)
        cumRises := fun i hi => Nat.le.intro (cumAt_buildCum_succ ht hi).symm }

/-- A command with a destination range commits one byte string inside it, and no register but OUT_LEN, BIT_LEN and
SYM_COUNT (40_control.md R157). -/
theorem bodyOf_commit_store {i : Instr} {p : Operands} {s t : State} (hw : (usesOf i).writesDst = true)
    (h : bodyOf i p s = .commit t) :
    ∃ out : List Byte, out.length ≤ p.dstCap.toNat ∧ t = { s with
      mem := Memory.writeBytes s.mem p.dstAddr.toNat out
      outLen := t.outLen
      bitLen := t.bitLen
      symCount := t.symCount } := by
  cases i with
  | nop | clearModel | scan | loadFreq | buildTree | buildCodes | buildPart => cases hw
  | saveFreq =>
    obtain ⟨hl, rfl⟩ := storeOutput_commit h
    exact ⟨_, hl, rfl⟩
  | huffEnc =>
    simp only [bodyOf, huffEncBody] at h
    split at h
    · cases h
    · obtain ⟨_, hl, rfl⟩ := storePacked_commit h
      exact ⟨_, (packBits_length _).trans_le hl, rfl⟩
  | huffDec =>
    simp only [bodyOf, huffDecBody] at h
    split at h
    · cases h
    · split at h
      · cases h
      · obtain ⟨hl, rfl⟩ := storeOutput_commit h
        exact ⟨_, hl, rfl⟩
  | arithEnc =>
    simp only [bodyOf, arithEncBody] at h
    split at h
    · cases h
    · obtain ⟨_, hl, rfl⟩ := storePacked_commit h
      exact ⟨_, (packBits_length _).trans_le hl, rfl⟩
  | arithDec =>
    simp only [bodyOf, arithDecBody] at h
    split at h
    · cases h
    · split at h
      · cases h
      · obtain ⟨hl, rfl⟩ := storeOutput_commit h
        exact ⟨_, hl, rfl⟩
  | pack =>
    simp only [bodyOf, packBody] at h
    split at h
    · obtain ⟨_, hl, rfl⟩ := storePacked_commit h
      exact ⟨_, (packBits_length _).trans_le hl, rfl⟩
    · cases h
  | unpack =>
    simp only [bodyOf, unpackBody] at h
    split at h
    · cases h
    · obtain ⟨hl, rfl⟩ := storeOutput_commit h
      exact ⟨_, hl, rfl⟩

theorem loadFreq_commit {p : Operands} {s t : State} (h : loadFreqBody p s = .commit t) :
    countSum (s.imageCounts p.srcAddr.toNat) ≤ 0xFFFFFFFF
      ∧ t = s.commitFreq (s.imageCounts p.srcAddr.toNat) := by
  simp only [loadFreqBody] at h
  split at h
  · cases h
  · split at h
    · cases h
    · rename_i hs
      cases h
      exact ⟨by omega, rfl⟩

/-- A command that commits keeps the invariant through its completion. -/
theorem inv_complete_commit {i : Instr} {s t : State} (h : Inv s) (hp : earlyError (usesOf i) s.operands s = none)
    (hb : bodyOf i s.operands s = .commit t) : Inv (t.complete none) := by
  by_cases hw : (usesOf i).writesDst = true
  · have hin := dst_inside_of_passes hp hw
    obtain ⟨out, hl, ht⟩ := bodyOf_commit_store hw hb
    rw [ht]
    exact inv_complete_store h _ out (by omega) t.outLen t.bitLen t.symCount s.draws none
  · cases i with
    | nop => cases hb; exact inv_complete h none
    | clearModel => cases hb; exact inv_complete_clearModel h
    | scan =>
      cases hb
      refine inv_complete_commitFreq h ?_
      have := s.operands.srcLen.isLt
      rw [countSum_scanCounts, State.source, readBytes_length]
      omega
    | loadFreq =>
      obtain ⟨hs, rfl⟩ := loadFreq_commit hb
      exact inv_complete_commitFreq h hs
    | buildTree => exact inv_complete_buildTree h hb
    | buildCodes =>
      have hv := ((earlyError_none_iff _ _ _).mp hp).2.2
      exact inv_complete_buildCodes h (by simpa [notBuilt, usesOf, ModelReg.valid] using hv) hb
    | buildPart => exact inv_complete_buildPart h hb
    | saveFreq | huffEnc | huffDec | arithEnc | arithDec | pack | unpack => exact absurd rfl hw

theorem inv_exec {i : Instr} {s t : State} (h : Inv s) (he : exec i s = .next t) : Inv t := by
  rcases exec_cases i s with ⟨e, _, hx⟩ | ⟨hp, ⟨e, _, hx⟩ | ⟨e, hb, hx⟩ | ⟨u, hb, hx⟩⟩ <;>
    obtain rfl := Host.Outcome.next.inj (hx.symm.trans he)
  · exact inv_complete h _
  · exact inv_complete h _
  · exact inv_raiseLate h _ (dst_inside_of_passes hp (bodyOf_late hb).1) e
  · exact inv_complete_commit h hp hb

theorem inv_engineStep {s t : State} (h : Inv s) (he : engineStep s = .next t) : Inv t := by
  rcases engineStep_cases he with ⟨i, _, hx⟩ | ⟨_, _, rfl⟩
  · exact inv_exec h hx
  · exact inv_complete h _

/-! ### Host operations -/

theorem latched_none_of_idle {s : State} (h : Inv s) (hb : s.status.busy = false) : s.latched = none := by
  have := h.latchedIffBusy
  rw [hb] at this
  exact Option.isNone_iff_eq_none.mp (by simpa using this)

theorem inv_acknowledge {s : State} (h : Inv s) (w : Word) : Inv (s.acknowledge w) :=
  { h with busyClean := fun hb => ⟨by simp [Status.cleared, (h.busyClean hb).1], (h.busyClean hb).2⟩ }

theorem inv_dropWrite {s : State} (h : Inv s) : Inv s.dropWrite := { h with }

/-- IRQ_EN is no matter of the invariant. -/
theorem inv_irqEn {s : State} (h : Inv s) (b : Bool) : Inv { s with irqEn := b } := { h with }

theorem inv_issue {s : State} (h : Inv s) (w : Word) : Inv (s.issue w) :=
  { h with
    errIffCode := by simp [Status.issued]
    errcodeKnown := Nat.zero_le _
    latchedIffBusy := rfl
    latchedCurrent := fun _ hp => (Option.some.inj hp).symm
    busyClean := fun _ => ⟨rfl, rfl⟩ }

/-- While no command runs there is no P that the operand registers could differ from. -/
theorem inv_writeIdle {s : State} (h : Inv s) (hb : s.status.busy = false) (r : RegName) (v : Word) :
    Inv (s.writeIdle r v) := by
  have hl := latched_none_of_idle h hb
  have hno : ∀ {P : Operands → Prop} p, s.latched = some p → P p := fun p hp => by simp [hl] at hp
  cases r with
  | cmd => exact inv_issue h v
  | status => exact inv_acknowledge h v
  | irqEn => exact inv_irqEn h _
  | sizeLimit | srcAddr | srcLen | dstAddr | dstCap | bitLen | symCount => exact { h with latchedCurrent := hno }
  | freqIdx | nodeIdx | codeIdx | partIdx => exact { h with }
  | id | version | outLen | model | total | freqData | nodeInfo | nodeWeight | treeInfo | codeLen | codeW n
  | partLow | partHigh => exact h

theorem inv_writeSlot {s : State} (h : Inv s) (r : Option RegName) (v : Word) : Inv (s.writeSlot r v) := by
  unfold State.writeSlot
  split
  · split
    · exact inv_acknowledge h v
    · exact inv_irqEn h _
    · exact inv_dropWrite h
  · rename_i hb
    cases r with
    | none => exact h
    | some r => exact inv_writeIdle h (by simpa using hb) r v

theorem inv_writeByte {s : State} (h : Inv s) {a : Nat} (ha : a < s.memSize) (v : Byte) : Inv (s.writeByte a v) :=
  { h with
    memCanonical := wf_write a v h.memCanonical
    memInside := fun c hc => by
      rcases mem_write hc with rfl | hc
      · exact ha
      · exact h.memInside c hc }

/-- A MEM access that does not fault comes while no command runs and is inside MEM. -/
theorem memFault_none_iff {s : State} {a : Nat} :
    s.memFault a = none ↔ s.status.busy = false ∧ a < s.memSize := by
  unfold State.memFault
  cases s.status.busy <;> simp

theorem inv_hostOp {op : HostOp} {s t : State} (h : Inv s) (ho : hostOp op s = .next t) : Inv t := by
  cases op with
  | regWrite width off v =>
    obtain ⟨_, rfl⟩ := hostRegWrite_eq_next_iff.mp ho
    exact inv_writeSlot h _ v
  | regRead width off =>
    obtain ⟨_, rfl⟩ := hostRegRead_eq_next_iff.mp ho
    exact { h with }
  | memWrite a v =>
    obtain ⟨hf, rfl⟩ := hostMemWrite_eq_next_iff.mp ho
    exact inv_writeByte h (memFault_none_iff.mp hf).2 v
  | memRead a =>
    obtain ⟨_, rfl⟩ := hostMemRead_eq_next_iff.mp ho
    exact { h with }
  | wait => cases ho; exact { h with }
  | reset => cases ho; exact inv_resetInput s

theorem inv_hostStep {op : HostOp} {rest : List HostOp} {s t : State} (h : Inv s) (hs : hostStep op rest s = .next t) :
    Inv t :=
  inv_hostOp (s := { s with host := rest, hostTurns := s.hostTurns - 1 }) { h with } hs

/-- Settles O7: by the two agents, a completion (`inv_engineStep`) and a host operation (`inv_hostStep`). -/
theorem everyStepKeepsTheInvariant : Obligations.EveryStepKeepsTheInvariant := by
  intro s t h hst
  rcases step_cases hst with ⟨_, he⟩ | ⟨_, _, rfl⟩ | ⟨_, op, rest, _, hs⟩
  · exact inv_engineStep h he
  · exact h
  · exact inv_hostStep h hs

end Sys2Proof.Proofs
end

section
/-! The register port (spec/10_state.md R43 to R71): the register map, what registers and windows read, and what HOST's
operations write, refuse and leave unchanged (R72 to R75, spec/60_exceptions.md R308, R310). -/

namespace Sys2Proof.Proofs

open Sys2Proof Sys2Proof.Machine Sys2Proof.Laws

/-! ### The register map -/

theorem registerAt_registerOffset (r : RegName) : registerAt (registerOffset r) = some r := by
  cases r with
  | codeW n => revert n; decide
  | _ => rfl

theorem registerOffset_of_registerAt {off : Nat} {r : RegName} (h : registerAt off = some r) :
    registerOffset r = off := by
  unfold registerAt at h
  split at h <;> cases h <;> rfl

theorem registerOffset_lt (r : RegName) : registerOffset r < 0x08C := by
  cases r with
  | codeW n => revert n; decide
  | _ => decide

/-- Past the last register every slot is reserved. -/
theorem registerAt_past {off : Nat} (h : 0x08C ≤ off) : registerAt off = none := by
  cases hr : registerAt off with
  | none => rfl
  | some r =>
    have hoff := registerOffset_of_registerAt hr
    have hlt := registerOffset_lt r
    omega

/-- Settles O12: the lists by evaluation, every offset past them (`registerAt_past`) and every register
(`registerAt_registerOffset`). -/
theorem registerMapIsAsListed : Obligations.RegisterMapIsAsListed :=
  ⟨rfl, rfl, rfl, fun _ h => registerAt_past h, registerAt_registerOffset⟩

theorem regAccessOk_iff {width off : Nat} :
    regAccessOk width off = true ↔ width = 32 ∧ off % 4 = 0 ∧ off < 0x100 := by
  simp [regAccessOk, regWidthOk, regAligned, regInBlock]

/-! ### Words read field by field

A field of a word that is a concatenation lies in one of its parts; `BitVec.extractLsb'_append_eq_of_le` and
`BitVec.extractLsb'_append_eq_of_add_le` find it. -/

theorem status_toWord_fields (st : Status) :
    st.toWord.getLsbD 0 = st.busy ∧ st.toWord.getLsbD 1 = st.done ∧ st.toWord.getLsbD 2 = st.err
      ∧ st.toWord.getLsbD 3 = false ∧ st.toWord.extractLsb' 4 4 = st.errcode ∧ st.toWord.extractLsb' 8 8 = 0
      ∧ st.toWord.getLsbD 16 = st.ovr ∧ st.toWord.extractLsb' 17 15 = 0 := by
  simp (disch := omega) only [Status.toWord, BitVec.extractLsb'_append_eq_of_add_le,
    BitVec.extractLsb'_append_eq_of_le, BitVec.getLsbD_append]
  simp

theorem model_toWord_fields (m : ModelReg) :
    m.toWord.getLsbD 0 = m.treeValid ∧ m.toWord.getLsbD 1 = m.codesValid ∧ m.toWord.getLsbD 2 = m.partValid
      ∧ m.toWord.extractLsb' 3 5 = 0 ∧ m.toWord.extractLsb' 8 9 = m.distinct ∧ m.toWord.extractLsb' 17 15 = 0 := by
  simp (disch := omega) only [ModelReg.toWord, BitVec.extractLsb'_append_eq_of_add_le,
    BitVec.extractLsb'_append_eq_of_le, BitVec.getLsbD_append]
  simp

theorem arena_infoWord_fields (t : Arena) :
    t.infoWord.extractLsb' 0 10 = t.count ∧ t.infoWord.extractLsb' 10 6 = 0 ∧ t.infoWord.extractLsb' 16 9 = t.root
      ∧ t.infoWord.extractLsb' 25 7 = 0 := by
  simp (disch := omega) only [Arena.infoWord, BitVec.extractLsb'_append_eq_of_add_le,
    BitVec.extractLsb'_append_eq_of_le]
  simp

theorem leaf_infoWord_fields (sym : Byte) (w : Word) :
    (Node.leaf sym w).infoWord.extractLsb' 0 9 = 0x1FF ∧ (Node.leaf sym w).infoWord.extractLsb' 9 9 = 0x1FF
      ∧ (Node.leaf sym w).infoWord.extractLsb' 18 8 = sym ∧ (Node.leaf sym w).infoWord.extractLsb' 26 4 = 0
      ∧ (Node.leaf sym w).infoWord.getLsbD 30 = true ∧ (Node.leaf sym w).infoWord.getLsbD 31 = true := by
  simp (disch := omega) only [Node.infoWord, noneIndex, BitVec.extractLsb'_append_eq_of_add_le,
    BitVec.extractLsb'_append_eq_of_le, BitVec.getLsbD_append]
  simp

theorem internal_infoWord_fields (l r : BitVec 9) (w : Word) :
    (Node.internal l r w).infoWord.extractLsb' 0 9 = l ∧ (Node.internal l r w).infoWord.extractLsb' 9 9 = r
      ∧ (Node.internal l r w).infoWord.extractLsb' 18 8 = 0 ∧ (Node.internal l r w).infoWord.extractLsb' 26 4 = 0
      ∧ (Node.internal l r w).infoWord.getLsbD 30 = true ∧ (Node.internal l r w).infoWord.getLsbD 31 = false := by
  simp (disch := omega) only [Node.infoWord, BitVec.extractLsb'_append_eq_of_add_le,
    BitVec.extractLsb'_append_eq_of_le, BitVec.getLsbD_append]
  simp

/-- An index register reads INDEX with every higher bit 0. -/
theorem setWidth_fields {n m k : Nat} (x : BitVec n) (h : n + k = m) :
    (x.setWidth m).extractLsb' 0 n = x ∧ (x.setWidth m).extractLsb' n k = 0 := by
  constructor
  · ext i hi
    simp [hi]
    omega
  · ext i hi
    simp

/-- Settles O18: each word with fields by its field lemma, each register of 32 bits by its stored word. -/
theorem registerFieldsAreAsDrawn : Obligations.RegisterFieldsAreAsDrawn := by
  intro s
  obtain ⟨hbusy, hdone, herr, hst3, hcode, hst8, hovr, hst17⟩ := status_toWord_fields s.status
  obtain ⟨htree, hcodes, hpart, hm3, hdistinct, hm17⟩ := model_toWord_fields s.model
  obtain ⟨hcount, ht10, hroot, ht25⟩ := arena_infoWord_fields s.arena
  have hirq : ∀ b : Bool, ((BitVec.ofBool b).setWidth 32).getLsbD 0 = b
      ∧ ((BitVec.ofBool b).setWidth 32).extractLsb' 1 31 = 0 := by decide
  have hidx8 := fun x : BitVec 8 => setWidth_fields (m := 32) (k := 24) x rfl
  have hidx9 := setWidth_fields (m := 32) (k := 23) s.nodeIdx rfl
  exact ⟨rfl, rfl, hbusy, hdone, herr, hst3, hcode, hst8, hovr, hst17, (hirq _).1, (hirq _).2, htree, hcodes, hpart,
    hm3, hdistinct, hm17, hcount, ht10, hroot, ht25, rfl, rfl, rfl, rfl, rfl, rfl, rfl, rfl, rfl, (hidx8 _).1,
    (hidx8 _).2, hidx9.1, hidx9.2, (hidx8 _).1, (hidx8 _).2, (hidx8 _).1, (hidx8 _).2, rfl, rfl, rfl, rfl⟩

/-! ### The windows on NODE and CODE -/

/-- The node windows read the entry NODE_IDX selects. -/
theorem regValue_node_windows {s : State} {n : Node} (h : s.arena.node.get s.nodeIdx.toNat .unused = n) :
    s.regValue .nodeInfo = n.infoWord ∧ s.regValue .nodeWeight = n.weightWord := by
  subst h
  exact ⟨rfl, rfl⟩

/-- Settles O19: the windows read one entry (`regValue_node_windows`), whose word has the fields of
`leaf_infoWord_fields` or `internal_infoWord_fields`; index 511 is past the arena. -/
theorem nodeWindowsReadTheArena : Obligations.NodeWindowsReadTheArena := by
  intro s
  refine ⟨fun sym w h => ?_, fun l r w h => ?_, regValue_node_windows (n := .unused),
    fun h => regValue_node_windows (n := .unused) ?_⟩
  · obtain ⟨hinfo, hweight⟩ := regValue_node_windows h
    obtain ⟨hl, hr, hsym, h26, hvalid, hleaf⟩ := leaf_infoWord_fields sym w
    rw [hinfo]
    exact ⟨hl, hr, hsym, h26, hvalid, hleaf, hweight⟩
  · obtain ⟨hinfo, hweight⟩ := regValue_node_windows h
    obtain ⟨hl, hr, hsym, h26, hvalid, hleaf⟩ := internal_infoWord_fields l r w
    rw [hinfo]
    exact ⟨hl, hr, hsym, h26, hvalid, hleaf, hweight⟩
  · rw [h]
    exact table_get_past _ _ le_rfl

/-- A number written bit by bit: it fits in its bits, and each is the bit written. -/
theorem sum_bits (f : Nat → Bool) (n : Nat) :
    ((List.range n).map (fun j => if f j then 2 ^ j else 0)).sum < 2 ^ n
      ∧ ∀ i < n, (((List.range n).map (fun j => if f j then 2 ^ j else 0)).sum).testBit i = f i := by
  induction n with
  | zero => simp
  | succ n ih =>
    obtain ⟨hlt, hbit⟩ := ih
    rw [List.range_succ, List.map_append, List.sum_append, List.map_singleton, List.sum_singleton, Nat.add_comm]
    cases hn : f n with
    | false =>
      rw [if_neg Bool.false_ne_true, Nat.zero_add]
      refine ⟨hlt.trans (Nat.pow_lt_pow_right (by omega) (by omega)), fun i hi => ?_⟩
      rcases Nat.lt_succ_iff_lt_or_eq.mp hi with hi | rfl
      · exact hbit i hi
      · rw [Nat.testBit_lt_two_pow hlt, hn]
    | true =>
      rw [if_pos rfl]
      refine ⟨by rw [Nat.pow_succ]; omega, fun i hi => ?_⟩
      rcases Nat.lt_succ_iff_lt_or_eq.mp hi with hi | rfl
      · rw [Nat.testBit_two_pow_add_gt hi, hbit i hi]
      · rw [Nat.testBit_two_pow_add_eq, Nat.testBit_lt_two_pow hlt, hn, Bool.not_false]

/-- Bit j of CODE_Wn is code bit 32n + j. -/
theorem codeWord_getLsbD (c : Bits) (n : Nat) {j : Nat} (h : j < 32) :
    (codeWord c n).getLsbD j = c.getD (32 * n + j) false := by
  rw [codeWord, BitVec.getLsbD_ofNat, (sum_bits (fun j => c.getD (32 * n + j) false) 32).2 j h, decide_eq_true h,
    Bool.true_and]

theorem codeWord_nil (n : Nat) : codeWord [] n = 0 := by
  simp [codeWord]

/-- Settles O20: a length of at most 255 fits in CODE_LEN, and the bits are those of `codeWord_getLsbD`. -/
theorem codeWindowsReadTheCode : Obligations.CodeWindowsReadTheCode := by
  intro s
  constructor
  · intro hl
    have hlen : (s.regValue .codeLen).toNat
        = (BitVec.ofNat 8 (s.code.get s.codeIdx.toNat []).length).toNat := BitVec.toNat_setWidth_of_le (by omega)
    rw [hlen, BitVec.toNat_ofNat]
    omega
  · intro n j hj
    refine (codeWord_getLsbD _ n.val hj).trans ?_
    split
    · rfl
    · rename_i hpast
      exact List.getD_eq_default _ _ (Nat.le_of_not_lt hpast)

/-! ### Reset values -/

/-- Settles O4: each register by its reset value (a code window by `codeWord_nil`), each table by its one entry. -/
theorem resetValuesAreAsListed : Obligations.ResetValuesAreAsListed := by
  intro top
  have hstatus : Status.toWord ⟨false, false, false, 0, false⟩ = 0 := by decide
  have hmodel : ModelReg.toWord ⟨false, false, false, 0⟩ = 0 := by decide
  have htree : Arena.empty.infoWord = 0x01FF0000 := by decide
  refine ⟨fun r => ?_, rfl, fun _ h => table_get_replicate_of_lt _ _ h,
    fun _ h => table_get_replicate_of_lt _ _ h, rfl, rfl, fun _ h => table_get_replicate_of_lt _ _ h,
    fun _ h => table_get_replicate_of_lt _ _ h, rfl, rfl, fun _ => rfl⟩
  cases r with
  | status => exact hstatus
  | model => exact hmodel
  | treeInfo => exact htree
  | codeW n => exact codeWord_nil n.val
  | _ => rfl

/-! ### What a register write does -/

theorem writeSlot_idle {s : State} (hb : s.status.busy = false) (r : RegName) (v : Word) :
    s.writeSlot (some r) v = s.writeIdle r v := by
  simp [State.writeSlot, hb]

theorem writeSlot_idle_reserved {s : State} (hb : s.status.busy = false) (v : Word) : s.writeSlot none v = s := by
  simp [State.writeSlot, hb]

/-- STATUS takes a write whatever BUSY is. -/
theorem writeSlot_status (s : State) (v : Word) : s.writeSlot (some .status) v = s.acknowledge v := by
  cases hb : s.status.busy <;> simp [State.writeSlot, hb, State.writeIdle]

/-- IRQ_EN takes a write whatever BUSY is. -/
theorem writeSlot_irqEn (s : State) (v : Word) : s.writeSlot (some .irqEn) v = { s with irqEn := v.getLsbD 0 } := by
  cases hb : s.status.busy <;> simp [State.writeSlot, hb, State.writeIdle]

theorem hostRegWrite_of_ok {width off : Nat} (h : regAccessOk width off = true) (v : Word) (s : State) :
    hostRegWrite width off v s = .next (s.writeSlot (registerAt off) v) :=
  hostRegWrite_eq_next_iff.mpr ⟨h, rfl⟩

theorem hostRegWrite_status (v : Word) (s : State) : hostRegWrite 32 0x00C v s = .next (s.acknowledge v) :=
  (hostRegWrite_of_ok rfl v s).trans (congrArg _ (writeSlot_status s v))

theorem hostRegWrite_irqEn (v : Word) (s : State) :
    hostRegWrite 32 0x010 v s = .next { s with irqEn := v.getLsbD 0 } :=
  (hostRegWrite_of_ok rfl v s).trans (congrArg _ (writeSlot_irqEn s v))

theorem regAccessOk_registerOffset (r : RegName) : regAccessOk 32 (registerOffset r) = true := by
  cases r with
  | codeW n => revert n; decide
  | _ => rfl

/-- While BUSY = 0 a write at a register's offset reaches that register. -/
theorem hostRegWrite_idle {s : State} (hb : s.status.busy = false) (r : RegName) (v : Word) :
    hostRegWrite 32 (registerOffset r) v s = .next (s.writeIdle r v) := by
  rw [hostRegWrite_of_ok (regAccessOk_registerOffset r), registerAt_registerOffset, writeSlot_idle hb]

/-- Settles O15: a write to STATUS is `State.acknowledge` (`hostRegWrite_status`), and the word of ack has bits 1
and 16. -/
theorem statusWriteClearsDoneAndOvr : Obligations.StatusWriteClearsDoneAndOvr := by
  intro s v
  refine ⟨hostRegWrite_status v s, (hostRegWrite_status 0x00010002 s).trans ?_⟩
  simp [State.acknowledge, Status.cleared]

/-- The offsets of the registers a write reaches. -/
def writableOffsets : List Nat :=
  [0x008, 0x00C, 0x010, 0x014, 0x018, 0x01C, 0x020, 0x024, 0x028, 0x02C, 0x040, 0x048, 0x058, 0x080]

/-- A register whose offset is none of those is read-only. -/
theorem writeIdle_readOnly (s : State) {r : RegName} (h : registerOffset r ∉ writableOffsets) (v : Word) :
    s.writeIdle r v = s := by
  cases r with
  | id | version | outLen | model | total | freqData | nodeInfo | nodeWeight | treeInfo | codeLen | codeW n
  | partLow | partHigh => rfl
  | cmd | status | irqEn | sizeLimit | srcAddr | srcLen | dstAddr | dstCap | bitLen | symCount
  | freqIdx | nodeIdx | codeIdx | partIdx => exact absurd (by decide) h

/-- Settles O16: each register by `hostRegWrite_idle`; elsewhere stands a reserved slot or a read-only register. -/
theorem writesWhileIdleReachTheirRegister : Obligations.WritesWhileIdleReachTheirRegister := by
  intro s v hb
  have hw := fun r => hostRegWrite_idle hb r v
  have h8 : v.extractLsb' 0 8 = v.setWidth 8 := (BitVec.setWidth_eq_extractLsb' (by omega)).symm
  have h9 : v.extractLsb' 0 9 = v.setWidth 9 := (BitVec.setWidth_eq_extractLsb' (by omega)).symm
  rw [h8, h9]
  refine ⟨hw .irqEn, hw .sizeLimit, hw .srcAddr, hw .srcLen, hw .dstAddr, hw .dstCap, hw .bitLen, hw .symCount,
    hw .freqIdx, hw .nodeIdx, hw .codeIdx, hw .partIdx, fun off h4 hlt hnot => ?_⟩
  rw [hostRegWrite_of_ok (regAccessOk_iff.mpr ⟨rfl, h4, hlt⟩)]
  cases hr : registerAt off with
  | none => rw [writeSlot_idle_reserved hb]
  | some r =>
    rw [writeSlot_idle hb, writeIdle_readOnly]
    rw [registerOffset_of_registerAt hr]
    exact hnot

/-- Settles O21: a completion sets DONE, an acknowledgement and an issue clear it, and IRQ_EN takes its bit. -/
theorem interruptFollowsDoneAndEnable : Obligations.InterruptFollowsDoneAndEnable := by
  refine ⟨fun s => by simp [State.irq], fun top => rfl, ?_, ?_, ?_, ?_⟩
  · intro i s t h
    rcases exec_cases i s with ⟨e, _, hx⟩ | ⟨_, ⟨e, _, hx⟩ | ⟨e, _, hx⟩ | ⟨u, hb, hx⟩⟩ <;>
      obtain rfl := Host.Outcome.next.inj (hx.symm.trans h)
    · rfl
    · rfl
    · rfl
    · exact (bodyOf_commit_same hb).irqEn
  · intro s t v hv h
    obtain rfl := Host.Outcome.next.inj ((hostRegWrite_status v s).symm.trans h)
    simp [State.irq, Status.cleared, hv]
  · intro s t w hb h
    obtain rfl := Host.Outcome.next.inj ((hostRegWrite_idle hb .cmd w).symm.trans h)
    rfl
  · intro s t v hd hv h
    obtain rfl := Host.Outcome.next.inj ((hostRegWrite_irqEn v s).symm.trans h)
    simp [State.irq, hd, hv]

/-! ### Undefined accesses, and what HOST leaves unchanged -/

theorem hostMemWrite_of_fault {s : State} {a : Nat} {f : Fault} (h : s.memFault a = some f) (v : Byte) :
    hostMemWrite a v s = .fault f := by
  rw [hostMemWrite, h]

theorem hostMemRead_of_fault {s : State} {a : Nat} {f : Fault} (h : s.memFault a = some f) :
    hostMemRead a s = .fault f := by
  rw [hostMemRead, h]

/-- Settles O22: register accesses by `regAccessOk_iff`, MEM accesses by their fault. -/
theorem undefinedHostActionsFault : Obligations.UndefinedHostActionsFault := by
  intro s
  refine ⟨fun width off v h => ?_, fun off v h4 hlt => ?_, fun a v hb => ?_, fun a v hb ha => ?_⟩
  · have hno : ¬ regAccessOk width off = true := fun hok => h (regAccessOk_iff.mp hok)
    exact ⟨if_neg hno, if_neg hno⟩
  · have hok := regAccessOk_iff.mpr ⟨rfl, h4, hlt⟩
    exact ⟨⟨_, hostRegWrite_eq_next_iff.mpr ⟨hok, rfl⟩⟩, ⟨_, hostRegRead_eq_next_iff.mpr ⟨hok, rfl⟩⟩⟩
  · have hf : s.memFault a = some .memAccessWhileBusy := by simp [State.memFault, hb]
    exact ⟨hostMemWrite_of_fault hf v, hostMemRead_of_fault hf⟩
  · have hf : s.memFault a = some .memAddressOutOfRange := by simp [State.memFault, hb, State.memSize, ha]
    exact ⟨hostMemWrite_of_fault hf v, hostMemRead_of_fault hf⟩

/-- What HOST leaves unchanged of the tables and results that commands make (10_state.md R56 to R58, R72 to R75). -/
structure SameResults (s t : State) : Prop where
  freq : t.freq = s.freq
  arena : t.arena = s.arena
  code : t.code = s.code
  cum : t.cum = s.cum
  model : t.model = s.model
  total : t.total = s.total
  outLen : t.outLen = s.outLen

/-- A register write leaves MEM and every table; BIT_LEN and SYM_COUNT only a write to them while idle changes. -/
theorem writeSlot_frame (s : State) (r : Option RegName) (v : Word) :
    SameResults s (s.writeSlot r v) ∧ (s.writeSlot r v).mem = s.mem
      ∧ (s.status.busy = true ∨ r ≠ some .bitLen → (s.writeSlot r v).bitLen = s.bitLen)
      ∧ (s.status.busy = true ∨ r ≠ some .symCount → (s.writeSlot r v).symCount = s.symCount) := by
  cases hb : s.status.busy with
  | true =>
    unfold State.writeSlot
    rw [if_pos hb]
    split <;> exact ⟨by constructor <;> rfl, rfl, fun _ => rfl, fun _ => rfl⟩
  | false =>
    cases r with
    | none =>
      rw [writeSlot_idle_reserved hb]
      exact ⟨by constructor <;> rfl, rfl, fun _ => rfl, fun _ => rfl⟩
    | some r =>
      rw [writeSlot_idle hb]
      cases r with
      | bitLen => exact ⟨by constructor <;> rfl, rfl, fun h => by simp at h, fun _ => rfl⟩
      | symCount => exact ⟨by constructor <;> rfl, rfl, fun _ => rfl, fun h => by simp at h⟩
      | _ => exact ⟨by constructor <;> rfl, rfl, fun _ => rfl, fun _ => rfl⟩

/-- A write the core defines that is not at a register's offset does not reach that register. -/
theorem registerAt_ne_of_op_ne {width off : Nat} {v : Word} {r : RegName} (hok : regAccessOk width off = true)
    (h : ∀ w, HostOp.regWrite width off v ≠ .regWrite 32 (registerOffset r) w) : registerAt off ≠ some r := by
  intro hr
  obtain ⟨rfl, _, _⟩ := regAccessOk_iff.mp hok
  exact h v (by rw [registerOffset_of_registerAt hr])

/-- Settles O27: of HOST's operations only a register write (`writeSlot_frame`) and a byte write touch what the
statement names. -/
theorem hostWritesNoTable : Obligations.HostWritesNoTable := by
  intro s t op rest hm hh hop h
  have hs : hostOp op { s with host := rest, hostTurns := s.hostTurns - 1 } = .next t := by
    rcases step_cases h with ⟨he, _⟩ | ⟨_, hnil, _⟩ | ⟨_, op', rest', hh', hs⟩
    · rw [hm] at he; cases he
    · rw [hh] at hnil; cases hnil
    · obtain ⟨rfl, rfl⟩ := List.cons.inj (hh.symm.trans hh')
      exact hs
  cases op with
  | regWrite width off v =>
    obtain ⟨hok, rfl⟩ := hostRegWrite_eq_next_iff.mp hs
    obtain ⟨⟨hf, ha, hc, hcum, hmod, htot, hout⟩, hmem, hbit, hsym⟩ :=
      writeSlot_frame { s with host := rest, hostTurns := s.hostTurns - 1 } (registerAt off) v
    exact ⟨hf, ha, hc, hcum, hmod, htot, hout,
      fun hne => hbit (Or.inr (registerAt_ne_of_op_ne (r := .bitLen) hok hne)),
      fun hne => hsym (Or.inr (registerAt_ne_of_op_ne (r := .symCount) hok hne)),
      fun hb => ⟨hbit (Or.inl hb), hsym (Or.inl hb)⟩, fun _ => hmem⟩
  | regRead width off =>
    obtain ⟨_, rfl⟩ := hostRegRead_eq_next_iff.mp hs
    exact ⟨rfl, rfl, rfl, rfl, rfl, rfl, rfl, fun _ => rfl, fun _ => rfl, fun _ => ⟨rfl, rfl⟩, fun _ => rfl⟩
  | memWrite a v =>
    obtain ⟨_, rfl⟩ := hostMemWrite_eq_next_iff.mp hs
    exact ⟨rfl, rfl, rfl, rfl, rfl, rfl, rfl, fun _ => rfl, fun _ => rfl, fun _ => ⟨rfl, rfl⟩,
      fun hne => absurd rfl (hne a v)⟩
  | memRead a =>
    obtain ⟨_, rfl⟩ := hostMemRead_eq_next_iff.mp hs
    exact ⟨rfl, rfl, rfl, rfl, rfl, rfl, rfl, fun _ => rfl, fun _ => rfl, fun _ => ⟨rfl, rfl⟩, fun _ => rfl⟩
  | wait =>
    cases hs
    exact ⟨rfl, rfl, rfl, rfl, rfl, rfl, rfl, fun _ => rfl, fun _ => rfl, fun _ => ⟨rfl, rfl⟩, fun _ => rfl⟩
  | reset => exact absurd rfl hop

end Sys2Proof.Proofs
end

section
/-! The forest the merging loop of BUILD_TREE keeps (spec/42_huffman.md R200): every node made is either one of the
active ones or the child of exactly one node, and the active ones weigh what the present symbols count together. -/

namespace Sys2Proof.Proofs

open Sys2Proof Sys2Proof.Machine Sys2Proof.Laws Sys2Proof.Claims

/-! ### Nodes by index -/

/-- Entry i of a list of nodes; Unused past its end, as in the arena made of it. -/
def entry (nodes : List Node) (i : Nat) : Node := nodes.getD i .unused

theorem entry_past {nodes : List Node} {i : Nat} (h : nodes.length ≤ i) : entry nodes i = .unused :=
  List.getD_eq_default _ _ h

theorem entry_append_of_lt {nodes : List Node} {i : Nat} (h : i < nodes.length) (x : Node) :
    entry (nodes ++ [x]) i = entry nodes i := by
  simp [entry, List.getElem?_append_left h]

theorem entry_append_length (nodes : List Node) (x : Node) : entry (nodes ++ [x]) nodes.length = x := by
  simp [entry]

/-- Node m is internal, and j is its left (bit 0) or right (bit 1) child (42_huffman.md R204). -/
def Child (node : Nat → Node) (m : Nat) (b : Bool) (j : Nat) : Prop :=
  ∃ l r w, node m = .internal l r w ∧ (if b then r else l).toNat = j

theorem child_append {nodes : List Node} {l r : BitVec 9} {w : Word} {m : Nat} {b : Bool} {j : Nat} :
    Child (entry (nodes ++ [.internal l r w])) m b j
      ↔ Child (entry nodes) m b j ∨ (m = nodes.length ∧ (if b then r else l).toNat = j) := by
  rcases Nat.lt_trichotomy m nodes.length with hm | rfl | hm
  · simp [Child, entry_append_of_lt hm, hm.ne]
  · simp [Child, entry_append_length, entry_past le_rfl]
  · have hpast : (nodes ++ [Node.internal l r w]).length ≤ m := by simpa using hm
    simp [Child, entry_past hpast, entry_past hm.le, hm.ne']

/-! ### The forest the merging loop keeps -/

/-- What holds of the nodes made so far and the active ones, for the given present symbols. -/
structure Forest (present : List (Byte × Word)) (nodes : List Node) (active : List Active) : Prop where
  size : nodes.length + active.length = 2 * present.length
  leaves : ∀ j, ∀ h : j < present.length, entry nodes j = .leaf present[j].1 present[j].2
  internals : ∀ n, present.length ≤ n → n < nodes.length → ∃ l r w, entry nodes n = .internal l r w
    ∧ l.toNat < n ∧ r.toNat < n ∧ l ≠ r
  nodup : (active.map Prod.snd).Nodup
  exists_of_active : ∀ x ∈ active, x.2 < nodes.length
  weights : ∀ x ∈ active, (entry nodes x.2).weightWord.toNat = x.1
  total : (active.map Prod.fst).sum = (present.map (fun x => x.2.toNat)).sum
  last_active : nodes ≠ [] → nodes.length - 1 ∈ active.map Prod.snd
  active_iff : ∀ j < nodes.length, j ∈ active.map Prod.snd ↔ ¬ ∃ m b, Child (entry nodes) m b j
  one_parent : ∀ m b m' b' j, Child (entry nodes) m b j → Child (entry nodes) m' b' j → m = m' ∧ b = b'

theorem Forest.perm {present : List (Byte × Word)} {nodes : List Node} {active active' : List Active}
    (h : Forest present nodes active) (hp : active'.Perm active) : Forest present nodes active' where
  size := by rw [hp.length_eq]; exact h.size
  leaves := h.leaves
  internals := h.internals
  nodup := ((hp.map Prod.snd).nodup_iff).mpr h.nodup
  exists_of_active := fun x hx => h.exists_of_active x (hp.mem_iff.mp hx)
  weights := fun x hx => h.weights x (hp.mem_iff.mp hx)
  total := (hp.map Prod.fst).sum_eq.trans h.total
  last_active := fun hn => (hp.map Prod.snd).mem_iff.mpr (h.last_active hn)
  active_iff := fun j hj => (hp.map Prod.snd).mem_iff.trans (h.active_iff j hj)
  one_parent := h.one_parent

/-- An internal node of a forest comes after its children, and past the leaves. -/
theorem Forest.child_bounds {present : List (Byte × Word)} {nodes : List Node} {active : List Active}
    (h : Forest present nodes active) {m j : Nat} {b : Bool} (hc : Child (entry nodes) m b j) :
    present.length ≤ m ∧ m < nodes.length ∧ j < m := by
  obtain ⟨l, r, w, hm, rfl⟩ := hc
  have hlen : m < nodes.length := by
    by_contra hge
    rw [entry_past (Nat.le_of_not_lt hge)] at hm
    cases hm
  have hk : present.length ≤ m := by
    by_contra hlt
    rw [h.leaves m (Nat.lt_of_not_le hlt)] at hm
    cases hm
  obtain ⟨l', r', w', hm', hl, hr, _⟩ := h.internals m hk hlen
  obtain ⟨rfl, rfl, _⟩ := Node.internal.inj (hm.symm.trans hm')
  exact ⟨hk, hlen, by split <;> assumption⟩

theorem Forest.leaves_made {present : List (Byte × Word)} {nodes : List Node} {active : List Active}
    (h : Forest present nodes active) : present.length ≤ nodes.length := by
  by_contra hlt
  have := h.leaves nodes.length (Nat.lt_of_not_le hlt)
  rw [entry_past le_rfl] at this
  cases this

/-- The forest before the first merge: the leaves, all active (42_huffman.md R200). -/
theorem forest_leaves (present : List (Byte × Word)) :
    Forest present (leafNodes present) (leafActives present) := by
  have hidx : (leafActives present).map Prod.snd = List.range present.length :=
    List.map_snd_zip (by simp)
  have hlen : (leafNodes present).length = present.length := by simp [leafNodes]
  have hleaf : ∀ j, ∀ h : j < present.length, entry (leafNodes present) j = .leaf present[j].1 present[j].2 := by
    intro j h
    simp [entry, leafNodes, h]
  have hno : ∀ m b j, ¬ Child (entry (leafNodes present)) m b j := by
    rintro m b j ⟨l, r, w, hm, _⟩
    rcases Nat.lt_or_ge m present.length with h | h
    · rw [hleaf m h] at hm
      cases hm
    · rw [entry_past (hlen.trans_le h)] at hm
      cases hm
  exact
    { size := by simp [leafNodes, leafActives]; omega
      leaves := hleaf
      internals := fun n h1 h2 => by omega
      nodup := hidx ▸ List.nodup_range
      exists_of_active := fun x hx => by
        have : x.2 ∈ (leafActives present).map Prod.snd := List.mem_map_of_mem hx
        rw [hidx, List.mem_range] at this
        rwa [hlen]
      weights := fun x hx => by
        obtain ⟨j, hj, rfl⟩ := List.getElem_of_mem hx
        have hj' : j < present.length := by simpa [leafActives] using hj
        simp [leafActives, hleaf j hj', Node.weightWord]
      total := congrArg List.sum (List.map_fst_zip (by simp))
      last_active := fun hn => by
        have : 0 < present.length := hlen ▸ List.length_pos_iff.mpr hn
        rw [hidx, hlen, List.mem_range]
        omega
      active_iff := fun j hj => by
        rw [hidx, List.mem_range]
        exact ⟨fun _ ⟨m, b, hc⟩ => hno m b j hc, fun _ => hlen ▸ hj⟩
      one_parent := fun m b m' b' j hc => (hno m b j hc).elim }

/-- The nodes after a merge of two active ones (42_huffman.md R200). -/
def mergedNodes (nodes : List Node) (x y : Active) : List Node :=
  nodes ++ [.internal (BitVec.ofNat 9 x.2) (BitVec.ofNat 9 y.2) (BitVec.ofNat 32 (x.1 + y.1))]

section
variable {present : List (Byte × Word)} {nodes : List Node} {active rest : List Active} {x y : Active}

/-- An active node is no node's child. -/
theorem Forest.not_child_of_active (h : Forest present nodes active) {z : Active} (hz : z ∈ active) {m : Nat}
    {b : Bool} : ¬ Child (entry nodes) m b z.2 := fun hc =>
  (h.active_iff z.2 (h.exists_of_active z hz)).mp (List.mem_map_of_mem hz) ⟨m, b, hc⟩

/-- With at most 256 leaves the index of an active node fits in its field while there are two. -/
theorem Forest.index_fits (h : Forest present nodes (x :: y :: rest)) (hk : present.length ≤ 256) {z : Active}
    (hz : z ∈ x :: y :: rest) : (BitVec.ofNat 9 z.2).toNat = z.2 := by
  have hsize := h.size
  have hlt := h.exists_of_active z hz
  simp only [List.length_cons] at hsize
  rw [BitVec.toNat_ofNat]
  omega

/-- The new node's children are the two merged; every other node keeps its own. -/
theorem Forest.child_merged_iff (h : Forest present nodes (x :: y :: rest)) (hk : present.length ≤ 256) {m : Nat}
    {b : Bool} {j : Nat} : Child (entry (mergedNodes nodes x y)) m b j
      ↔ Child (entry nodes) m b j ∨ (m = nodes.length ∧ (if b then y.2 else x.2) = j) := by
  rw [mergedNodes, child_append]
  cases b <;> simp [h.index_fits hk]

theorem Forest.merged_one_parent (h : Forest present nodes (x :: y :: rest)) (hk : present.length ≤ 256)
    {m m' j : Nat} {b b' : Bool} (hc : Child (entry (mergedNodes nodes x y)) m b j)
    (hc' : Child (entry (mergedNodes nodes x y)) m' b' j) : m = m' ∧ b = b' := by
  have hx : ∀ {m b}, ¬ Child (entry nodes) m b x.2 := h.not_child_of_active (by simp)
  have hy : ∀ {m b}, ¬ Child (entry nodes) m b y.2 := h.not_child_of_active (by simp)
  have hxy : x.2 ≠ y.2 := fun heq => (List.nodup_cons.mp h.nodup).1 (by simp [heq])
  rcases (h.child_merged_iff hk).mp hc with hc | ⟨rfl, rfl⟩ <;>
    rcases (h.child_merged_iff hk).mp hc' with hc' | ⟨rfl, hj⟩
  · exact h.one_parent m b m' b' j hc hc'
  · subst hj
    cases b' with
    | false => exact absurd hc hx
    | true => exact absurd hc hy
  · cases b with
    | false => exact absurd hc' hx
    | true => exact absurd hc' hy
  · refine ⟨rfl, ?_⟩
    cases b with
    | false =>
      cases b' with
      | false => rfl
      | true => exact absurd hj.symm hxy
    | true =>
      cases b' with
      | false => exact absurd hj hxy
      | true => rfl

theorem Forest.merged_active_iff (h : Forest present nodes (x :: y :: rest)) (hk : present.length ≤ 256) {j : Nat}
    (hj : j < nodes.length + 1) : j ∈ rest.map Prod.snd ++ [nodes.length]
      ↔ ¬ ∃ m b, Child (entry (mergedNodes nodes x y)) m b j := by
  have hnodup := h.nodup
  simp only [List.map_cons, List.nodup_cons, List.mem_cons, not_or] at hnodup
  obtain ⟨⟨_, hxr⟩, hyr, _⟩ := hnodup
  simp only [h.child_merged_iff hk, List.mem_append, List.mem_singleton]
  rcases Nat.lt_succ_iff_lt_or_eq.mp hj with hj | rfl
  · have hold := h.active_iff j hj
    simp only [List.map_cons, List.mem_cons] at hold
    constructor
    · rintro (hmem | rfl)
      · rintro ⟨m, b, hc | ⟨-, hc⟩⟩
        · exact hold.mp (Or.inr (Or.inr hmem)) ⟨m, b, hc⟩
        · subst hc
          cases b with
          | false => exact hxr hmem
          | true => exact hyr hmem
      · exact absurd hj (Nat.lt_irrefl _)
    · intro hno
      rcases hold.mpr fun ⟨m, b, hc⟩ => hno ⟨m, b, Or.inl hc⟩ with rfl | rfl | hmem
      · exact absurd ⟨nodes.length, false, Or.inr ⟨rfl, rfl⟩⟩ hno
      · exact absurd ⟨nodes.length, true, Or.inr ⟨rfl, rfl⟩⟩ hno
      · exact Or.inl hmem
  · refine iff_of_true (Or.inr rfl) ?_
    rintro ⟨m, b, hc | ⟨-, hc⟩⟩
    · have := h.child_bounds hc
      omega
    · have hx := h.exists_of_active x (by simp)
      have hy := h.exists_of_active y (by simp)
      cases b with
      | false => exact hx.ne hc
      | true => exact hy.ne hc

/-- One merge: the first two active nodes become the children of a new one, which is active in their place
(42_huffman.md R200). Weights and indices fit in their fields. -/
theorem Forest.merge (h : Forest present nodes (x :: y :: rest)) (hk : present.length ≤ 256)
    (hsum : (present.map (fun x => x.2.toNat)).sum < 2 ^ 32) :
    Forest present (mergedNodes nodes x y) (rest ++ [(x.1 + y.1, nodes.length)]) := by
  have hlen : (mergedNodes nodes x y).length = nodes.length + 1 := by simp [mergedNodes]
  have hsize := h.size
  have htotal := h.total
  simp only [List.length_cons] at hsize
  simp only [List.map_cons, List.sum_cons] at htotal
  have hx := h.exists_of_active x (by simp)
  have hy := h.exists_of_active y (by simp)
  have hx9 := h.index_fits hk (z := x) (by simp)
  have hy9 := h.index_fits hk (z := y) (by simp)
  have hxy : x.2 ≠ y.2 := fun heq => (List.nodup_cons.mp h.nodup).1 (by simp [heq])
  have hmade := h.leaves_made
  have hold : ∀ {z}, z ∈ rest → z.2 < nodes.length := fun hz => h.exists_of_active _ (by simp [hz])
  exact
    { size := by rw [hlen, List.length_append, List.length_singleton]; omega
      leaves := fun j hj => (entry_append_of_lt (by omega) _).trans (h.leaves j hj)
      internals := fun n hn hlt => by
        rcases Nat.lt_succ_iff_lt_or_eq.mp (hlen ▸ hlt) with hlt | rfl
        · rw [mergedNodes, entry_append_of_lt hlt]
          exact h.internals n hn hlt
        · refine ⟨_, _, _, entry_append_length _ _, by omega, by omega, fun heq => hxy ?_⟩
          rw [← hx9, ← hy9, heq]
      nodup := by
        rw [List.map_append, List.nodup_append_comm]
        refine List.nodup_cons.mpr ⟨fun hmem => ?_, (List.nodup_cons.mp (List.nodup_cons.mp h.nodup).2).2⟩
        obtain ⟨z, hz, heq⟩ := List.mem_map.mp hmem
        exact (hold hz).ne heq
      exists_of_active := fun z hz => by
        rw [hlen]
        rcases List.mem_append.mp hz with hz | hz
        · exact (hold hz).trans (Nat.lt_succ_self _)
        · rw [List.mem_singleton.mp hz]
          exact Nat.lt_succ_self _
      weights := fun z hz => by
        rcases List.mem_append.mp hz with hz | hz
        · rw [mergedNodes, entry_append_of_lt (hold hz)]
          exact h.weights z (by simp [hz])
        · rw [List.mem_singleton.mp hz, mergedNodes, entry_append_length, Node.weightWord, BitVec.toNat_ofNat]
          omega
      total := by
        simp only [List.map_append, List.sum_append, List.map_singleton, List.sum_singleton]
        omega
      last_active := fun _ => by simp [hlen]
      active_iff := fun j hj => by
        rw [List.map_append]
        exact h.merged_active_iff hk (hlen ▸ hj)
      one_parent := fun _ _ _ _ _ hc hc' => h.merged_one_parent hk hc hc' }

end

/-- What holds of the nodes and the active ones at the start and is kept by every merge holds when at most one active
node is left, with fuel for every merge. -/
theorem mergeLoop_induct {P : List Node → List Active → Prop} (hperm : ∀ nodes active active',
      P nodes active → active'.Perm active → P nodes active')
    (hstep : ∀ nodes x y rest, P nodes (x :: y :: rest) →
      P (mergedNodes nodes x y) (rest ++ [(x.1 + y.1, nodes.length)]))
    (fuel : Nat) (nodes : List Node) (active : List Active)
    (hfuel : active.length ≤ fuel + 1) (h : P nodes active) :
    ∃ active', active'.length ≤ 1 ∧ P (mergeLoop fuel nodes active) active' := by
  induction fuel generalizing nodes active with
  | zero => exact ⟨active, hfuel, h⟩
  | succ fuel ih =>
    simp only [mergeLoop]
    split
    · rename_i ha
      rw [extractLeast_none ha] at h
      exact ⟨[], Nat.zero_le _, h⟩
    · rename_i x active1 ha
      have hp1 := extractLeast_perm ha
      split
      · rename_i hb
        rw [extractLeast_none hb] at hp1
        exact ⟨[x], le_rfl, hperm _ _ _ h hp1⟩
      · rename_i y active2 hb
        have hp2 := ((extractLeast_perm hb).cons x).trans hp1
        have hlen := hp2.length_eq
        simp only [List.length_cons] at hlen
        refine ih _ _ ?_ (hstep _ _ _ _ (hperm _ _ _ h hp2))
        simp only [List.length_append, List.length_singleton]
        omega

/-! ### The present symbols -/

theorem entries_eq_map_get {α : Type} {n : Nat} (t : Table α n) (d : α) :
    t.entries = (List.range n).map (fun i => t.get i d) := by
  refine List.ext_getElem (by simp [t.size_eq]) fun i h1 h2 => ?_
  simp [Table.get, h1]

/-- A list summed over the entries of a table is summed over the symbols. -/
theorem entries_map_eq_symbols {β : Type} (freq : Table Word 256) (f : Word → β) :
    freq.entries.map f = allSymbols.map (fun b => f (freq.get b.toNat 0)) := by
  rw [entries_eq_map_get freq 0, allSymbols, List.map_map, List.map_map]
  refine List.map_congr_left fun i hi => ?_
  have hi : i < 256 := List.mem_range.mp hi
  simp [Nat.mod_eq_of_lt hi]

theorem mem_allSymbols (b : Byte) : b ∈ allSymbols :=
  List.mem_map.mpr ⟨b.toNat, List.mem_range.mpr b.isLt, BitVec.eq_of_toNat_eq (by simp)⟩

theorem sum_filter_of_zero {α : Type} (l : List α) (p : α → Bool) (f : α → Nat) (h : ∀ x, p x = false → f x = 0) :
    ((l.filter p).map f).sum = (l.map f).sum := by
  induction l with
  | nil => rfl
  | cons x xs ih =>
    cases hp : p x with
    | true => simp [hp, ih]
    | false => simp [hp, ih, h x hp]

theorem presentSymbols_sum (freq : Table Word 256) :
    ((presentSymbols freq).map (fun x => x.2.toNat)).sum = freqSum freq := by
  have habsent : ∀ x : Byte × Word, (x.2 != 0) = false → x.2.toNat = 0 := fun x hx => by
    rw [bne_eq_false_iff_eq.mp hx]
    rfl
  rw [presentSymbols, sum_filter_of_zero _ _ _ habsent, List.map_map, freqSum, entries_map_eq_symbols]
  rfl

theorem pos_count_iff {freq : Table Word 256} {b : Byte} : 0 < count freq b ↔ freq.get b.toNat 0 ≠ 0 := by
  rw [count, Nat.pos_iff_ne_zero, ne_eq, ne_eq, ← BitVec.toNat_inj]
  rfl

/-- The symbols of the leaves are the present symbols of the statement. -/
theorem presentSymbols_map_fst (freq : Table Word 256) : (presentSymbols freq).map Prod.fst = present freq := by
  rw [presentSymbols, List.filter_map, List.map_map, present]
  refine (List.map_id _).trans (List.filter_congr fun b _ => ?_)
  rw [Bool.eq_iff_iff, decide_eq_true_eq, pos_count_iff]
  simp

theorem mem_present_iff {freq : Table Word 256} {b : Byte} : b ∈ present freq ↔ 0 < count freq b := by
  rw [present, List.mem_filter, decide_eq_true_eq]
  exact and_iff_right (mem_allSymbols b)

/-- DISTINCT counts the present symbols. -/
theorem countP_entries_eq_present_length (freq : Table Word 256) :
    freq.entries.countP (fun c => decide (c ≠ 0)) = (present freq).length := by
  have hentries : freq.entries = allSymbols.map (fun b => freq.get b.toNat 0) := by
    simpa using entries_map_eq_symbols freq id
  rw [hentries, List.countP_map, present, ← List.countP_eq_length_filter]
  refine List.countP_congr fun b _ => ?_
  simp only [Function.comp_apply, decide_eq_true_eq, pos_count_iff]

/-- The nodes of the tree of FREQ are a forest with at most one active node. -/
theorem forest_treeNodes {freq : Table Word 256} (hsum : freqSum freq < 2 ^ 32) :
    ∃ active, active.length ≤ 1 ∧ Forest (presentSymbols freq) (treeNodes freq) active := by
  have hk := presentSymbols_length_le freq
  have hsum' : ((presentSymbols freq).map (fun x => x.2.toNat)).sum < 2 ^ 32 := by rwa [presentSymbols_sum]
  refine mergeLoop_induct (P := Forest (presentSymbols freq)) (fun _ _ _ h hp => h.perm hp)
    (fun _ _ _ _ h => h.merge hk hsum') _ _ _ ?_ (forest_leaves _)
  simp only [leafActives, List.length_zip, List.length_map, List.length_range]
  omega

end Sys2Proof.Proofs
end

section
/-! The tree and the codes of the invariant (spec/10_state.md R76, 42_huffman.md R200 to R205). The forest with one
active node left is a strict tree: every node has one path from ROOT, and the codes are the paths to the leaves. -/

namespace Sys2Proof.Proofs

open Sys2Proof Sys2Proof.Machine Sys2Proof.Laws Sys2Proof.Claims

/-! ### The arena BUILD_TREE makes -/

/-- The shape of the tree of FREQ in the arena (42_huffman.md R200 to R203). -/
structure StrictTree (freq : Table Word 256) (t : Arena) : Prop where
  count_eq : t.count.toNat = 2 * (present freq).length - 1
  root_eq : t.count ≠ 0 → t.root.toNat = t.count.toNat - 1
  leaves : ∀ j, ∀ h : j < (present freq).length, ∃ w, t.nodeAt j = .leaf (present freq)[j] w
  internals : ∀ n, (present freq).length ≤ n → n < t.count.toNat → ∃ l r w, t.nodeAt n = .internal l r w ∧ l ≠ r
  child_bounds : ∀ {m b j}, Child t.nodeAt m b j → (present freq).length ≤ m ∧ m < t.count.toNat ∧ j < m
  parent : ∀ j, j + 1 < t.count.toNat → ∃ m b, Child t.nodeAt m b j
  one_parent : ∀ {m b m' b' j}, Child t.nodeAt m b j → Child t.nodeAt m' b' j → m = m' ∧ b = b'
  root_weight : t.count ≠ 0 → (t.nodeAt t.root.toNat).weightWord.toNat = freqSum freq

theorem present_length_eq (freq : Table Word 256) : (present freq).length = (presentSymbols freq).length := by
  rw [← presentSymbols_map_fst, List.length_map]

/-- The last active node is the last node made. -/
theorem Forest.root {present : List (Byte × Word)} {nodes : List Node} {active : List Active}
    (h : Forest present nodes active) (hone : active.length ≤ 1) (hk : present ≠ []) :
    nodes.length = 2 * present.length - 1
      ∧ active = [((present.map (fun x => x.2.toNat)).sum, nodes.length - 1)] := by
  have hsize := h.size
  have hpos := List.length_pos_iff.mpr hk
  have hlast := h.last_active (List.length_pos_iff.mp (by omega))
  have htotal := h.total
  match active with
  | [] => simp at hlast
  | [x] =>
    simp only [List.map_cons, List.map_nil, List.mem_singleton, List.sum_cons, List.sum_nil, List.length_cons,
      List.length_nil] at hlast htotal hsize
    exact ⟨by omega, by rw [hlast, ← htotal]; rfl⟩
  | x :: y :: rest => simp at hone

theorem buildArena_nodeAt (freq : Table Word 256) : (buildArena freq).nodeAt = entry (treeNodes freq) :=
  funext (arenaOf_nodeAt (treeNodes_length_le freq))

theorem buildArena_count (freq : Table Word 256) : (buildArena freq).count.toNat = (treeNodes freq).length :=
  arenaOf_count (treeNodes_length_le freq)

theorem buildArena_root {freq : Table Word 256} (h : (treeNodes freq).length ≠ 0) :
    (buildArena freq).root.toNat = (treeNodes freq).length - 1 := by
  have := treeNodes_length_le freq
  simp only [buildArena, arenaOf, if_neg h, BitVec.toNat_ofNat]
  omega

/-- The arena BUILD_TREE makes of counts whose sum fits in TOTAL is a strict tree of the present symbols. -/
theorem strictTree_buildArena {freq : Table Word 256} (hsum : freqSum freq < 2 ^ 32) :
    StrictTree freq (buildArena freq) := by
  obtain ⟨active, hone, hf⟩ := forest_treeNodes hsum
  have hlen := present_length_eq freq
  have hcount : (treeNodes freq).length = 2 * (present freq).length - 1 := by
    by_cases hk : presentSymbols freq = []
    · have := hf.size
      rw [hlen, hk] at *
      simp only [List.length_nil] at this ⊢
      omega
    · rw [(hf.root hone hk).1, hlen]
  have hroot : (treeNodes freq).length ≠ 0 →
      active = [(freqSum freq, (treeNodes freq).length - 1)] := by
    intro hn
    rw [← presentSymbols_sum]
    refine (hf.root hone fun hk => hn ?_).2
    rw [hcount, hlen, hk]
    rfl
  have hne : (buildArena freq).count ≠ 0 → (treeNodes freq).length ≠ 0 := by
    intro h h0
    exact h (BitVec.eq_of_toNat_eq (by rw [buildArena_count, h0]; rfl))
  exact
    { count_eq := (buildArena_count freq).trans hcount
      root_eq := fun h => by rw [buildArena_root (hne h), buildArena_count]
      leaves := fun j hj => by
        have hj' : j < (presentSymbols freq).length := hlen ▸ hj
        have hsym : (present freq)[j] = (presentSymbols freq)[j].1 := by
          rw [List.getElem_of_eq (presentSymbols_map_fst freq).symm hj, List.getElem_map]
        exact ⟨(presentSymbols freq)[j].2, by rw [buildArena_nodeAt, hf.leaves j hj', hsym]⟩
      internals := fun n hn hlt => by
        rw [buildArena_count] at hlt
        obtain ⟨l, r, w, hnode, _, _, hlr⟩ := hf.internals n (hlen ▸ hn) hlt
        exact ⟨l, r, w, (congrFun (buildArena_nodeAt freq) n).trans hnode, hlr⟩
      child_bounds := fun hc => by
        rw [buildArena_nodeAt] at hc
        rw [buildArena_count, hlen]
        exact hf.child_bounds hc
      parent := fun j hj => by
        rw [buildArena_count] at hj
        rw [buildArena_nodeAt]
        by_contra hno
        have hmem := (hf.active_iff j (by omega)).mpr hno
        rw [hroot (by omega)] at hmem
        simp only [List.map_cons, List.map_nil, List.mem_singleton] at hmem
        omega
      one_parent := fun hc hc' => by
        rw [buildArena_nodeAt] at hc hc'
        exact hf.one_parent _ _ _ _ _ hc hc'
      root_weight := fun h => by
        rw [buildArena_root (hne h), buildArena_nodeAt]
        exact hf.weights (freqSum freq, _) (by rw [hroot (hne h)]; exact List.mem_singleton_self _) }

/-! ### Paths -/

theorem follow_append (t : Arena) (i : Nat) (p q : Bits) :
    follow t i (p ++ q) = (follow t i p).bind (fun j => follow t j q) := by
  induction p generalizing i with
  | nil => rfl
  | cons b p ih =>
    simp only [List.cons_append, follow]
    split
    · exact ih _
    · rfl
    · rfl

theorem follow_cons_iff {t : Arena} {i n : Nat} {b : Bool} {p : Bits} :
    follow t i (b :: p) = some n ↔ ∃ j, Child t.nodeAt i b j ∧ follow t j p = some n := by
  simp only [follow, Child]
  split
  · rename_i l r w hi
    cases b <;> simp [hi]
  · rename_i hi
    simp [hi]
  · rename_i hi
    simp [hi]

theorem follow_snoc_iff {t : Arena} {i n : Nat} {b : Bool} {p : Bits} :
    follow t i (p ++ [b]) = some n ↔ ∃ m, follow t i p = some m ∧ Child t.nodeAt m b n := by
  rw [follow_append, Option.bind_eq_some_iff]
  refine exists_congr fun m => and_congr_right fun _ => ?_
  rw [follow_cons_iff]
  simp [follow]

/-- From a leaf no path leads on. -/
theorem follow_of_leaf {t : Arena} {i n : Nat} {sym : Byte} {w : Word} {p : Bits} (h : t.nodeAt i = .leaf sym w)
    (hp : follow t i p = some n) : p = [] := by
  cases p with
  | nil => rfl
  | cons b p => simp [follow, h] at hp

theorem StrictTree.follow_le {freq : Table Word 256} {t : Arena} (h : StrictTree freq t) {i n : Nat} {p : Bits}
    (hp : follow t i p = some n) : n ≤ i := by
  induction p generalizing i with
  | nil => exact (Option.some.inj hp).ge
  | cons b p ih =>
    obtain ⟨j, hc, hj⟩ := follow_cons_iff.mp hp
    exact (ih hj).trans (h.child_bounds hc).2.2.le

/-- A path passes internal nodes only, each after its child, so it is at most as long as they are many. -/
theorem StrictTree.follow_length_le {freq : Table Word 256} {t : Arena} (h : StrictTree freq t) {i n : Nat} {p : Bits}
    (hp : follow t i p = some n) : p.length ≤ i + 1 - (present freq).length := by
  induction p generalizing i with
  | nil => exact Nat.zero_le _
  | cons b p ih =>
    obtain ⟨j, hc, hj⟩ := follow_cons_iff.mp hp
    have := ih hj
    obtain ⟨hk, _, hlt⟩ := h.child_bounds hc
    simp only [List.length_cons]
    omega

/-- Two paths from the same node to the same node are equal, since every node has one parent. -/
theorem StrictTree.follow_inj {freq : Table Word 256} {t : Arena} (h : StrictTree freq t) {i n : Nat} {p q : Bits}
    (hp : follow t i p = some n) (hq : follow t i q = some n) : p = q := by
  have hloop : ∀ {p b}, follow t i (p ++ [b]) ≠ some i := by
    intro p b hpb
    obtain ⟨m, hm, hc⟩ := follow_snoc_iff.mp hpb
    have := h.follow_le hm
    have := (h.child_bounds hc).2.2
    omega
  induction p using List.reverseRecOn generalizing n q with
  | nil =>
    obtain rfl : i = n := Option.some.inj hp
    rcases List.eq_nil_or_concat' q with rfl | ⟨q, b, rfl⟩
    · rfl
    · exact absurd hq hloop
  | append_singleton p b ih =>
    rcases List.eq_nil_or_concat' q with rfl | ⟨q, b', rfl⟩
    · obtain rfl : i = n := Option.some.inj hq
      exact absurd hp hloop
    · obtain ⟨m, hm, hc⟩ := follow_snoc_iff.mp hp
      obtain ⟨m', hm', hc'⟩ := follow_snoc_iff.mp hq
      obtain ⟨rfl, rfl⟩ := h.one_parent hc hc'
      rw [ih hm hm']

/-- Every node is reached from ROOT: the root at once, any other through its parent, which comes after it. -/
theorem StrictTree.exists_path {freq : Table Word 256} {t : Arena} (h : StrictTree freq t) {n : Nat}
    (hn : n < t.count.toNat) : ∃ p, follow t t.root.toNat p = some n := by
  have hroot := h.root_eq fun h0 => by simp [h0] at hn
  induction hd : t.count.toNat - n using Nat.strong_induction_on generalizing n with
  | _ d ih =>
    by_cases hlast : n + 1 < t.count.toNat
    · obtain ⟨m, b, hc⟩ := h.parent n hlast
      obtain ⟨_, hm, hlt⟩ := h.child_bounds hc
      obtain ⟨p, hp⟩ := ih (t.count.toNat - m) (by omega) hm rfl
      exact ⟨p ++ [b], follow_snoc_iff.mpr ⟨m, hp, hc⟩⟩
    · exact ⟨[], congrArg some (by omega)⟩

/-! ### The codes BUILD_CODES makes -/

/-- A leaf of the tree is that of a present symbol. -/
theorem StrictTree.leaf_present {freq : Table Word 256} {t : Arena} (h : StrictTree freq t) {n : Nat} {sym : Byte}
    {w : Word} (hn : n < t.count.toNat) (hl : t.nodeAt n = .leaf sym w) :
    ∃ hk : n < (present freq).length, sym = (present freq)[n] := by
  have hk : n < (present freq).length := by
    by_contra hge
    obtain ⟨l, r, w', hi, _⟩ := h.internals n (Nat.le_of_not_lt hge) hn
    rw [hi] at hl
    cases hl
  obtain ⟨w', hl'⟩ := h.leaves n hk
  exact ⟨hk, (Node.leaf.inj (hl.symm.trans hl')).1⟩

/-- The codes assigned on a tree of two or more leaves are the paths from ROOT to the leaves. -/
theorem StrictTree.mem_assignedCodes {freq : Table Word 256} {t : Arena} (h : StrictTree freq t)
    (hk : 2 ≤ (present freq).length) {b : Byte} {c : Bits} :
    (b, c) ∈ assignedCodes t ↔ ∃ n w, follow t t.root.toNat c = some n ∧ t.nodeAt n = .leaf b w := by
  have hcount := h.count_eq
  have h0 : t.count ≠ 0 := fun h0 => by simp [h0] at hcount; omega
  have h1 : t.count ≠ 1 := fun h1 => by simp [h1] at hcount; omega
  rw [assignedCodes, if_neg h0, if_neg h1, mem_walkTree]
  constructor
  · rintro ⟨q, n, w, -, rfl, hq, hn⟩
    exact ⟨n, w, hq, hn⟩
  · rintro ⟨n, w, hc, hn⟩
    have := h.follow_length_le hc
    have := h.root_eq h0
    have hle := presentSymbols_length_le freq
    rw [← present_length_eq] at hle
    exact ⟨c, n, w, by omega, rfl, hc, hn⟩

/-- The code of a single-leaf tree is "0". -/
theorem StrictTree.assignedCodes_single {freq : Table Word 256} {t : Arena} (h : StrictTree freq t) {sym : Byte}
    (hk : present freq = [sym]) : assignedCodes t = [(sym, [false])] := by
  have hcount : t.count = 1 := BitVec.eq_of_toNat_eq (h.count_eq.trans (by rw [hk]; rfl))
  obtain ⟨w, hl⟩ := h.leaves 0 (by simp [hk])
  simp [assignedCodes, hcount, hl, hk]

/-- What the assigned codes are, whatever the number of leaves: codes of present symbols that are not empty, one for
each, and none the beginning of another's. -/
theorem StrictTree.codes {freq : Table Word 256} {t : Arena} (h : StrictTree freq t) :
    (∀ b c, (b, c) ∈ assignedCodes t → 0 < count freq b ∧ c ≠ [])
      ∧ (∀ b, 0 < count freq b → ∃ c, (b, c) ∈ assignedCodes t)
      ∧ ∀ b c b' c', (b, c) ∈ assignedCodes t → (b', c') ∈ assignedCodes t → c <+: c' → b = b' := by
  match hp : present freq with
  | [] =>
    have hcount : t.count = 0 := BitVec.eq_of_toNat_eq (h.count_eq.trans (by rw [hp]; rfl))
    have hnil : assignedCodes t = [] := by simp [assignedCodes, hcount]
    simp [hnil, ← mem_present_iff, hp]
  | [sym] =>
    simp only [h.assignedCodes_single hp, ← mem_present_iff, hp, List.mem_singleton, Prod.mk.injEq]
    refine ⟨?_, ?_, ?_⟩
    · rintro b c ⟨rfl, rfl⟩
      exact ⟨rfl, List.cons_ne_nil _ _⟩
    · rintro b rfl
      exact ⟨_, rfl, rfl⟩
    · rintro b c b' c' ⟨rfl, -⟩ ⟨rfl, -⟩ -
      rfl
  | x :: y :: rest =>
    have hk : 2 ≤ (present freq).length := by simp [hp]
    have hcount := h.count_eq
    have hroot := h.root_eq fun h0 => by simp [h0] at hcount; omega
    simp only [h.mem_assignedCodes hk, ← mem_present_iff]
    refine ⟨?_, ?_, ?_⟩
    · rintro b c ⟨n, w, hc, hn⟩
      have hle := h.follow_le hc
      obtain ⟨hlt, rfl⟩ := h.leaf_present (by omega) hn
      refine ⟨List.getElem_mem _, ?_⟩
      rintro rfl
      have : t.root.toNat = n := Option.some.inj hc
      omega
    · intro b hb
      obtain ⟨n, hn, rfl⟩ := List.getElem_of_mem hb
      obtain ⟨w, hl⟩ := h.leaves n hn
      obtain ⟨c, hc⟩ := h.exists_path (n := n) (by omega)
      exact ⟨c, n, w, hc, hl⟩
    · rintro b c b' c' ⟨n, w, hc, hn⟩ ⟨n', w', hc', hn'⟩ ⟨d, rfl⟩
      rw [follow_append, hc, Option.bind_some] at hc'
      obtain rfl := follow_of_leaf hn hc'
      obtain rfl : n = n' := Option.some.inj hc'
      exact (Node.leaf.inj (hn.symm.trans hn')).1

/-- The code table of a strict tree: a symbol has a code exactly when it is present, and no code begins another's. -/
theorem StrictTree.codeTable {freq : Table Word 256} {t : Arena} (h : StrictTree freq t) :
    (∀ b : Byte, (buildCodeTable t).get b.toNat [] ≠ [] ↔ 0 < count freq b)
      ∧ ∀ b c : Byte, b ≠ c → (buildCodeTable t).get b.toNat [] ≠ [] → (buildCodeTable t).get c.toNat [] ≠ [] →
        ¬ (buildCodeTable t).get b.toNat [] <+: (buildCodeTable t).get c.toNat [] := by
  obtain ⟨hsound, hcomplete, hfree⟩ := h.codes
  have hmem : ∀ b : Byte, (buildCodeTable t).get b.toNat [] ≠ [] →
      (b, (buildCodeTable t).get b.toNat []) ∈ assignedCodes t := fun b hb =>
    (buildCodeTable_get t b).resolve_left fun hno => hb hno.2
  refine ⟨fun b => ⟨fun hb => (hsound _ _ (hmem b hb)).1, fun hb => ?_⟩, fun b c hbc hb hc hpre => ?_⟩
  · obtain ⟨c, hc⟩ := hcomplete b hb
    exact (hsound _ _ ((buildCodeTable_get t b).resolve_left fun hno => hno.1 c hc)).2
  · exact hbc (hfree _ _ _ _ (hmem b hb) (hmem c hc) hpre)

/-! ### What the invariant says of the tables -/

theorem weight_eq (t : Arena) (i : Nat) : weight t i = (t.nodeAt i).weightWord.toNat := by
  unfold weight
  cases t.nodeAt i <;> rfl

theorem child_of_internal {node : Nat → Node} {n : Nat} {l r : BitVec 9} {w : Word} (h : node n = .internal l r w) :
    Child node n false l.toNat ∧ Child node n true r.toNat :=
  ⟨⟨l, r, w, h, rfl⟩, ⟨l, r, w, h, rfl⟩⟩

theorem total_eq_freqSum {s : State} (h : Inv s) : s.total.toNat = freqSum s.freq := h.totalIsSum

theorem strictTree_of_inv {s : State} (h : Inv s) (hv : s.model.treeValid = true) : StrictTree s.freq s.arena := by
  rw [h.treeBuilt hv]
  exact strictTree_buildArena (total_eq_freqSum h ▸ s.total.isLt)

/-- Settles O46: a valid tree is a `StrictTree`, valid codes are its `codeTable`, and a valid partition has the
counts as its steps (`cumAt_buildCum_succ`). -/
theorem tablesMatchTheCounts : Obligations.TablesMatchTheCounts := by
  intro s h
  have htotal := total_eq_freqSum h
  have hdistinct := h.distinctIsCount.trans (countP_entries_eq_present_length s.freq)
  refine ⟨htotal, hdistinct, fun hv => ?_, fun hv => ?_, fun hv => ?_⟩
  · have ht := strictTree_of_inv h hv
    have hcount := ht.count_eq
    refine ⟨hcount, ht.leaves, fun n l r w hn => ?_, fun n hn => ?_, fun hk => ?_⟩
    · obtain ⟨hl, hr⟩ := child_of_internal hn
      obtain ⟨hge, hlt, hln⟩ := ht.child_bounds hl
      obtain ⟨l', r', w', hn', hlr⟩ := ht.internals n hge hlt
      obtain ⟨rfl, rfl, rfl⟩ := Node.internal.inj (hn.symm.trans hn')
      exact ⟨hln, (ht.child_bounds hr).2.2, hlr⟩
    · obtain ⟨p, hp⟩ := ht.exists_path hn
      exact ⟨p, hp, fun q hq => ht.follow_inj hq hp⟩
    · rw [weight_eq, htotal]
      exact ht.root_weight fun h0 => by simp [h0] at hcount; omega
  · obtain ⟨htv, hcode⟩ := h.codesBuilt hv
    have hc := (strictTree_of_inv h htv).codeTable
    rw [← hcode] at hc
    exact hc
  · obtain ⟨hcum, hmax⟩ := h.partBuilt hv
    rw [hcum]
    refine ⟨fun b => cumAt_buildCum_succ hmax b.isLt, ?_, ?_⟩
    · rw [cumAt_buildCum hmax le_rfl, htotal, List.take_of_length_le (by rw [List.length_map, s.freq.size_eq])]
      rfl
    · rw [htotal]
      exact (partitionTotal_eq_sum s.freq).symm.trans_le hmax

end Sys2Proof.Proofs
end

section
/-! The memory port and the bit order (spec/20_memory.md R100 to R114): a byte written is the byte read, a wide write is
its bytes in little-endian order, and UnpackBits undoes PackBits. -/

namespace Sys2Proof.Proofs

open Sys2Proof Sys2Proof.Machine Sys2Proof.Laws Sys2Proof.Claims

/-! ### One byte on the memory port -/

theorem readByte_writeByte_same (s : State) (a : Nat) (v : Byte) : (s.writeByte a v).readByte a = v := by
  simp only [State.readByte, writeByte_mem, lookup_write, if_pos]

theorem readByte_writeByte_of_ne {a b : Nat} (h : b ≠ a) (s : State) (v : Byte) :
    (s.writeByte a v).readByte b = s.readByte b := by
  simp only [State.readByte, writeByte_mem, writeByte_resets, lookup_write, if_neg h]

/-- While idle, an address up to the last one of MEM has no fault. -/
theorem memFault_none_of_idle {s : State} {a : Nat} (hb : s.status.busy = false) (ha : a ≤ s.memTop.toNat) :
    s.memFault a = none :=
  memFault_none_iff.mpr ⟨hb, Nat.lt_succ_of_le ha⟩

theorem hostMemRead_idle {s : State} {a : Nat} (hb : s.status.busy = false) (ha : a ≤ s.memTop.toNat) :
    hostMemRead a s = .next { s with replies := .mem a (s.readByte a) :: s.replies } :=
  hostMemRead_eq_next_iff.mpr ⟨memFault_none_of_idle hb ha, rfl⟩

theorem hostMemWrite_idle {s : State} {a : Nat} (hb : s.status.busy = false) (ha : a ≤ s.memTop.toNat) (v : Byte) :
    hostMemWrite a v s = .next (s.writeByte a v) :=
  hostMemWrite_eq_next_iff.mpr ⟨memFault_none_of_idle hb ha, rfl⟩

/-- Settles O23: the port does not fault (`hostMemRead_idle`, `hostMemWrite_idle`), and a written byte is read back. -/
theorem hostByteWriteThenRead : Obligations.HostByteWriteThenRead := by
  intro s a hb ha
  refine ⟨hostMemRead_idle hb ha, fun v => ⟨s.writeByte a v, hostMemWrite_idle hb ha v, rfl,
    readByte_writeByte_same s a v, fun b hne => readByte_writeByte_of_ne hne s v, ?_⟩⟩
  have hread := hostMemRead_idle (s := s.writeByte a v) hb ha
  rwa [readByte_writeByte_same] at hread

/-! ### Wide writes -/

/-- A write of n + 1 bytes is the write of the lowest byte, then of the n bytes of the rest of the value. -/
theorem wideMemWrite_succ (a n v : Nat) :
    wideMemWrite a (n + 1) v = .memWrite a (BitVec.ofNat 8 v) :: wideMemWrite (a + 1) n (v / 256) := by
  simp [wideMemWrite, List.range_succ_eq_map, Function.comp_def, Nat.div_div_eq_div_mul, Nat.pow_succ', Nat.add_assoc,
    Nat.add_comm 1]

/-- A byte is a number modulo 256. -/
theorem ofNat_mod_256 (v : Nat) : BitVec.ofNat 8 (v % 256) = BitVec.ofNat 8 v :=
  BitVec.eq_of_toNat_eq (by simp)

theorem run_succ {s t : State} (h : step s = .next t) (k : Nat) : core.run (k + 1) s = core.run k t := by
  have hs : core.step s = .next t := h
  simp only [Host.Core.run, hs]

/-- The state after a byte write by HOST, with `rest` still to do. -/
def afterMemWrite (s : State) (a : Nat) (v : Byte) (rest : List HostOp) : State :=
  { s with host := rest, hostTurns := s.hostTurns - 1 }.writeByte a v

/-- While idle, HOST's next operation is the next step. -/
theorem step_idle {s : State} {op : HostOp} {rest : List HostOp} (hb : s.status.busy = false)
    (hh : s.host = op :: rest) : step s = hostStep op rest s := by
  simp [step, State.engineMoves, hb, hh]

theorem step_memWrite {s : State} {a : Nat} {v : Byte} {rest : List HostOp} (hb : s.status.busy = false)
    (ha : a ≤ s.memTop.toNat) (hh : s.host = .memWrite a v :: rest) : step s = .next (afterMemWrite s a v rest) :=
  (step_idle hb hh).trans (hostMemWrite_idle (s := { s with host := rest, hostTurns := s.hostTurns - 1 }) hb ha v)

/-- Settles O24, by induction on the number of bytes: the first write sets byte 0, which the writes of the rest of the
value, one address higher, leave as it is. -/
theorem wideHostWriteIsLittleEndian : Obligations.WideHostWriteIsLittleEndian := by
  intro s a n
  induction n generalizing s a with
  | zero => exact fun v _ _ _ => ⟨s, rfl, fun j hj => absurd hj (Nat.not_lt_zero j), fun _ _ => rfl⟩
  | succ n ih =>
    intro v hb hin hh
    rw [wideMemWrite_succ] at hh
    have hstep := step_memWrite hb (by omega) hh
    obtain ⟨t, hrun, hbytes, hout⟩ := ih (afterMemWrite s a _ (wideMemWrite (a + 1) n (v / 256))) (a + 1)
      (v / 256) hb (show a + 1 + n ≤ s.memTop.toNat + 1 by omega) rfl
    refine ⟨t, (run_succ hstep n).trans hrun, fun j hj => ?_, fun x hx => ?_⟩
    · cases j with
      | zero =>
        rw [ofNat_mod_256, Nat.pow_zero, Nat.div_one]
        exact (hout a (by omega)).trans (readByte_writeByte_same _ a _)
      | succ j =>
        rw [Nat.pow_succ', ← Nat.div_div_eq_div_mul, ← Nat.add_assoc, Nat.add_right_comm]
        exact hbytes j (by omega)
    · exact (hout x (by omega)).trans (readByte_writeByte_of_ne (by omega) _ _)

/-! ### PackBits and UnpackBits -/

/-- Bits read from where they were stored packed are the bits stored (20_memory.md R108). -/
theorem unpackBits_writePacked (s : State) (a : Nat) (bits : Bits) :
    (s.writeBytes a (packBits bits)).unpackBits a bits.length = bits := by
  apply List.ext_getElem (unpackBits_length ..)
  intro i h1 h2
  rw [unpackBits_getElem, bitAt_writePacked _ _ _ _ (by rw [ceil8]; omega), bitOrZero_of_lt h2]

/-- Past the bits read there is only padding. -/
theorem bitOrZero_unpackBits (s : State) (a n i : Nat) :
    bitOrZero (s.unpackBits a n) i = (decide (i < n) && s.bitAt a i) := by
  by_cases h : i < n
  · rw [bitOrZero_of_lt (by rwa [unpackBits_length]), unpackBits_getElem, decide_eq_true h, Bool.true_and]
  · rw [bitOrZero_past (by rw [unpackBits_length]; omega), decide_eq_false h, Bool.false_and]

/-- Settles O59: `unpackBits_writePacked`, and bit for bit `packBits_bit` of the bits read. -/
theorem unpackBitsUndoesPackBits : Obligations.UnpackBitsUndoesPackBits := by
  refine ⟨unpackBits_writePacked, fun s a n => ?_⟩
  have hlen := unpackBits_length s a n
  refine ⟨by rw [packBits_length, hlen, ceil8], fun i hi => ?_⟩
  rw [packBits_bit _ _ (by rwa [hlen]), bitOrZero_unpackBits]
  rfl

end Sys2Proof.Proofs
end

section
/-! A command reads no byte of MEM outside its source range (spec/20_memory.md R102): run over another MEM that agrees
there, it ends alike, and every write of it is the same string at the same place in both. -/

namespace Sys2Proof.Proofs

open Sys2Proof Sys2Proof.Machine Sys2Proof.Laws Sys2Proof.Claims

/-- Every byte in which `s` and `s` over the MEM `m` agree is one in which `t` and `t` over the MEM `m'` agree. -/
def KeepsAgreement (s : State) (m : List Host.Cell) (t : State) (m' : List Host.Cell) : Prop :=
  ∀ x, ({ s with mem := m } : State).readByte x = s.readByte x →
    ({ t with mem := m' } : State).readByte x = t.readByte x

theorem KeepsAgreement.refl (s : State) (m : List Host.Cell) : KeepsAgreement s m s m := fun _ hx => hx

/-- The same string written to both makes no byte differ that did not. -/
theorem KeepsAgreement.writeBytes {s t : State} {m m' : List Host.Cell} (h : KeepsAgreement s m t m') (a : Nat)
    (bs : List Byte) : KeepsAgreement s m (t.writeBytes a bs) (Memory.writeBytes m' a bs) := by
  intro x hx
  change (({ t with mem := m' } : State).writeBytes a bs).readByte x = _
  by_cases hin : a ≤ x ∧ x < a + bs.length
  · obtain ⟨i, rfl⟩ := Nat.exists_eq_add_of_le hin.1
    rw [readByte_writeBytes_inside _ _ _ _ (by omega), readByte_writeBytes_inside _ _ _ _ (by omega)]
  · rw [readByte_writeBytes_outside _ _ _ _ hin, readByte_writeBytes_outside _ _ _ _ hin, h x hx]

/-- Two ends of steps 5 to 8, the one over `s` and the other over `s` with the MEM `m`: the same error, or commits that
differ in MEM only, and there in no byte in which the two agreed. -/
inductive EndsAlike (s : State) (m : List Host.Cell) : CmdResult → CmdResult → Prop
  | early (e : CmdError) : EndsAlike s m (.early e) (.early e)
  | late (e : CmdError) : EndsAlike s m (.late e) (.late e)
  | commit (t : State) (m' : List Host.Cell) (h : KeepsAgreement s m t m') :
      EndsAlike s m (.commit t) (.commit { t with mem := m' })

theorem storeOutput_endsAlike {s t : State} {m m' : List Host.Cell} (h : KeepsAgreement s m t m') (p : Operands)
    (out : List Byte) : EndsAlike s m (storeOutput p out t) (storeOutput p out { t with mem := m' }) := by
  unfold storeOutput
  split
  · exact .late _
  · exact .commit _ _ (h.writeBytes p.dstAddr.toNat out)

theorem storePacked_endsAlike {s t : State} {m m' : List Host.Cell} (h : KeepsAgreement s m t m') (p : Operands)
    (bits : Bits) : EndsAlike s m (storePacked p bits t) (storePacked p bits { t with mem := m' }) := by
  unfold storePacked
  split
  · exact .late _
  · exact storeOutput_endsAlike (t := { t with bitLen := BitVec.ofNat 32 bits.length }) h p _

/-- `s` and `s` over the MEM `m` agree on the source range. -/
def SameSource (p : Operands) (s : State) (m : List Host.Cell) : Prop :=
  ∀ x, p.srcAddr.toNat ≤ x → x < p.srcAddr.toNat + p.srcLen.toNat →
    ({ s with mem := m } : State).readByte x = s.readByte x

section
variable {p : Operands} {s : State} {m : List Host.Cell}

theorem SameSource.readByte (h : SameSource p s m) {j : Nat} (hj : j < p.srcLen.toNat) :
    ({ s with mem := m } : State).readByte (p.srcAddr.toNat + j) = s.readByte (p.srcAddr.toNat + j) :=
  h _ (by omega) (by omega)

theorem SameSource.source (h : SameSource p s m) : ({ s with mem := m } : State).source p = s.source p :=
  List.map_congr_left fun _ hj => h.readByte (List.mem_range.mp hj)

/-- The packed bits stand inside a source range that is long enough for them. -/
theorem SameSource.sourceBits (h : SameSource p s m) (hlen : sourceTooShort p = false) :
    ({ s with mem := m } : State).sourceBits p = s.sourceBits p := by
  have hle : ceil8 p.bitLen.toNat ≤ p.srcLen.toNat := by simpa [sourceTooShort] using hlen
  exact unpackBits_congr fun j hj => h.readByte (by omega)

/-- The image stands inside a source range of at least its size. -/
theorem SameSource.imageCounts (h : SameSource p s m) (hlen : imageSize ≤ p.srcLen.toNat) :
    ({ s with mem := m } : State).imageCounts p.srcAddr.toNat = s.imageCounts p.srcAddr.toNat := by
  rw [imageSize] at hlen
  refine table_ext 0 fun i hi => ?_
  rw [State.imageCounts, State.imageCounts, table_get_tabulate _ _ hi, table_get_tabulate _ _ hi]
  simp only [State.readLE32, Nat.add_assoc]
  rw [h.readByte (by omega), h.readByte (by omega), h.readByte (by omega), h.readByte (by omega)]

theorem loadFreqBody_endsAlike (h : SameSource p s m) :
    EndsAlike s m (loadFreqBody p s) (loadFreqBody p { s with mem := m }) := by
  unfold loadFreqBody
  by_cases hlen : p.srcLen.toNat < imageSize
  · rw [if_pos hlen, if_pos hlen]
    exact .early _
  · rw [if_neg hlen, if_neg hlen, h.imageCounts (by omega)]
    split
    · exact .early _
    · exact .commit _ m (.refl s m)

theorem huffEncBody_endsAlike (h : SameSource p s m) :
    EndsAlike s m (huffEncBody p s) (huffEncBody p { s with mem := m }) := by
  unfold huffEncBody
  rw [h.source]
  cases huffEncode s.code (s.source p) with
  | none => exact .late _
  | some bits => exact storePacked_endsAlike (t := { s with symCount := p.srcLen }) (.refl s m) p bits

theorem arithEncBody_endsAlike (h : SameSource p s m) :
    EndsAlike s m (arithEncBody p s) (arithEncBody p { s with mem := m }) := by
  unfold arithEncBody
  rw [h.source]
  cases arithEncode s.cum (s.source p) with
  | none => exact .late _
  | some bits => exact storePacked_endsAlike (t := { s with symCount := p.srcLen }) (.refl s m) p bits

theorem packBody_endsAlike (h : SameSource p s m) :
    EndsAlike s m (packBody p s) (packBody p { s with mem := m }) := by
  unfold packBody
  rw [h.source]
  split
  · exact storePacked_endsAlike (.refl s m) p _
  · exact .early _

theorem huffDecBody_endsAlike (h : SameSource p s m) :
    EndsAlike s m (huffDecBody p s) (huffDecBody p { s with mem := m }) := by
  unfold huffDecBody
  cases hlen : sourceTooShort p with
  | true => exact .early _
  | false =>
    rw [h.sourceBits hlen]
    cases huffDecode s.arena (s.sourceBits p) with
    | none => exact .late _
    | some out => exact storeOutput_endsAlike (t := { s with symCount := BitVec.ofNat 32 out.length }) (.refl s m) p out

theorem arithDecBody_endsAlike (h : SameSource p s m) :
    EndsAlike s m (arithDecBody p s) (arithDecBody p { s with mem := m }) := by
  unfold arithDecBody
  cases hlen : sourceTooShort p with
  | true => exact .early _
  | false =>
    rw [h.sourceBits hlen]
    cases arithDecode s.cum (s.sourceBits p) p.symCount.toNat with
    | none => exact .late _
    | some out => exact storeOutput_endsAlike (.refl s m) p out

theorem unpackBody_endsAlike (h : SameSource p s m) :
    EndsAlike s m (unpackBody p s) (unpackBody p { s with mem := m }) := by
  unfold unpackBody
  cases hlen : sourceTooShort p with
  | true => exact .early _
  | false =>
    rw [h.sourceBits hlen]
    exact storeOutput_endsAlike (.refl s m) p _

/-- Steps 5 to 8 of a command end alike over two MEMs that agree on the source range, if it has one. -/
theorem bodyOf_endsAlike {i : Instr} (h : readsSource i = true → SameSource p s m) :
    EndsAlike s m (bodyOf i p s) (bodyOf i p { s with mem := m }) := by
  cases i with
  | nop | clearModel | buildTree | buildCodes => exact .commit _ m (.refl s m)
  | scan =>
    simp only [bodyOf, scanBody, (h rfl).source]
    exact .commit _ m (.refl s m)
  | loadFreq => exact loadFreqBody_endsAlike (h rfl)
  | saveFreq => exact storeOutput_endsAlike (.refl s m) p _
  | buildPart =>
    simp only [bodyOf, buildPartBody]
    split
    · exact .early _
    · exact .commit _ m (.refl s m)
  | huffEnc => exact huffEncBody_endsAlike (h rfl)
  | huffDec => exact huffDecBody_endsAlike (h rfl)
  | arithEnc => exact arithEncBody_endsAlike (h rfl)
  | arithDec => exact arithDecBody_endsAlike (h rfl)
  | pack => exact packBody_endsAlike (h rfl)
  | unpack => exact unpackBody_endsAlike (h rfl)

theorem runCommand_raises {u : Uses} {body : Operands → State → CmdResult} {e : CmdError}
    (h : earlyError u s.operands s = some e) : runCommand u body s = .next (s.conclude (.early e)) := by
  unfold runCommand
  rw [h]

/-- Steps 2 to 4 read nothing of MEM, so over both MEMs they raise the same error or let steps 5 to 8 run. -/
theorem runCommand_endsAlike {body : Operands → State → CmdResult}
    (h : EndsAlike s m (body s.operands s) (body s.operands { s with mem := m })) (u : Uses) :
    ∃ r r', EndsAlike s m r r' ∧ runCommand u body s = .next (s.conclude r)
      ∧ runCommand u body { s with mem := m } = .next (({ s with mem := m } : State).conclude r') := by
  rcases runCommand_cases u body s with ⟨e, he, hs⟩ | ⟨he, hs⟩
  · exact ⟨_, _, .early e, hs, runCommand_raises (s := { s with mem := m }) he⟩
  · exact ⟨_, _, h, hs, runCommand_passes (s := { s with mem := m }) he⟩

/-- The completion keeps the agreement: a late error draws the same bytes over both MEMs (notes/assumptions/5.md). -/
theorem EndsAlike.conclude {r r' : CmdResult} (h : EndsAlike s m r r') :
    ∃ m', ({ s with mem := m } : State).conclude r' = { s.conclude r with mem := m' }
      ∧ KeepsAgreement s m (s.conclude r) m' := by
  cases h with
  | early e => exact ⟨m, rfl, .refl s m⟩
  | late e =>
    exact ⟨_, rfl, (KeepsAgreement.refl s m).writeBytes s.operands.dstAddr.toNat
      (s.drawnBytes s.operands.dstCap.toNat)⟩
  | commit t m' hkeep => exact ⟨m', rfl, hkeep⟩

end

/-- Settles O32: the command's own steps end alike (`bodyOf_endsAlike`), and so do the checks before them and the
completion after them. -/
theorem commandsReadOnlyTheirSource : Obligations.CommandsReadOnlyTheirSource := by
  intro i s m h
  obtain ⟨r, r', hr, h1, h2⟩ := runCommand_endsAlike (bodyOf_endsAlike h) (usesOf i)
  obtain ⟨m', hm, hkeep⟩ := hr.conclude
  rw [exec_eq_runCommand, exec_eq_runCommand]
  exact ⟨_, _, h1, h2.trans (congrArg _ hm), rfl, hkeep⟩

end Sys2Proof.Proofs
end

section
/-! The encoding (spec/30_encoding.md): the decoder's and the encoder's word fields, the words it rejects (R134, R135),
the port operations of host statements (R136 to R138) and one pass of `wait` (R137). -/

namespace Sys2Proof.Proofs

open Sys2Proof Sys2Proof.Machine Sys2Proof.Laws Sys2Proof.Claims

/-! ### Decoding -/

theorem joinWord_toNat (c : CmdWord) : (joinWord c).toNat = 256 * c.reserved.toNat + c.opcode.toNat := by
  rw [joinWord, BitVec.toNat_append, ← Nat.shiftLeft_add_eq_or_of_lt c.opcode.isLt, Nat.shiftLeft_eq]
  omega

theorem splitWord_joinWord (c : CmdWord) : splitWord (joinWord c) = c := by
  have hop := c.opcode.isLt
  have hw := joinWord_toNat c
  have hopcode : (splitWord (joinWord c)).opcode = c.opcode :=
    BitVec.eq_of_toNat_eq (by rw [opcode_toNat]; omega)
  have hreserved : (splitWord (joinWord c)).reserved = c.reserved :=
    BitVec.eq_of_toNat_eq (by rw [reserved_toNat]; omega)
  exact congrArg₂ CmdWord.mk hopcode hreserved

theorem joinWord_splitWord (w : Word) : joinWord (splitWord w) = w :=
  BitVec.eq_of_toNat_eq (by rw [joinWord_toNat, opcode_toNat, reserved_toNat]; exact Nat.div_add_mod _ _)

theorem instrOfOpcode_opcodeOf (i : Instr) : instrOfOpcode (opcodeOf i) = some i := by
  cases i <;> rfl

/-- The words that decode: RESERVED is 0 and OPCODE stands in the opcode map. -/
theorem decode_eq_ok_iff {w : Word} {i : Instr} :
    decode w = .ok i ↔ (splitWord w).reserved = 0 ∧ instrOfOpcode (splitWord w).opcode = some i := by
  unfold decode CmdWord.reservedIsZero
  generalize splitWord w = c
  by_cases hr : c.reserved = 0#24
  · cases instrOfOpcode c.opcode <;> simp [hr]
  · simp [hr]

theorem decode_encode (i : Instr) : decode (encode i) = .ok i := by
  rw [decode_eq_ok_iff, encode, splitWord_joinWord]
  exact ⟨rfl, instrOfOpcode_opcodeOf i⟩

theorem eq_encode_of_decode {w : Word} {i : Instr} (h : decode w = .ok i) : w = encode i := by
  obtain ⟨hres, hop⟩ := decode_eq_ok_iff.mp h
  calc w = joinWord ⟨(splitWord w).opcode, (splitWord w).reserved⟩ := (joinWord_splitWord w).symm
    _ = encode i := by rw [hres, ← instrOfOpcode_some hop, encode]

/-- Settles O2: the fields of a word are those it was joined from and give it back, and the opcode map and the OPCODE
column are inverse. -/
theorem decodeAndEncodeAgree : Obligations.DecodeAndEncodeAgree :=
  ⟨fun i _ => decode_encode i, fun _ _ h => eq_encode_of_decode h⟩

/-- The Illegal words of 30_encoding.md R134. -/
theorem decode_illegal {w : Word} (h : w.toNat / 256 ≠ 0 ∨ 0x0D < w.toNat % 256) : ∃ e, decode w = .error e := by
  by_cases hr : w.toNat / 256 = 0
  · have hop : 0x0D < (splitWord w).opcode.toNat := by
      rw [opcode_toNat]
      exact h.resolve_left (not_not_intro hr)
    exact ⟨.opcodeUnmapped, by rw [decode_of_reserved_zero hr, instrOfOpcode_none hop]⟩
  · exact ⟨.reservedNotZero, decode_of_reserved_ne hr⟩

/-- Settles O3: the rejected words are `decode_illegal`, and the opcode map has a row for every other. -/
theorem decodeIsTotalByField : Obligations.DecodeIsTotalByField := by
  intro w
  refine ⟨fun hr => decode_illegal (Or.inl hr), fun _ hop => decode_illegal (Or.inr hop), fun hr hop => ?_⟩
  rw [← opcode_toNat] at hop ⊢
  obtain ⟨i, hi⟩ := instrOfOpcode_of_le hop
  refine ⟨i, ?_, congrArg BitVec.toNat (instrOfOpcode_some hi)⟩
  rw [decode_of_reserved_zero hr, hi]

/-- Settles O1: the row's word is the command's word, which decodes to it. -/
theorem tableWordsDecode : Obligations.TableWordsDecode :=
  ⟨decode_encode .nop, decode_encode .clearModel, decode_encode .scan, decode_encode .loadFreq,
    decode_encode .saveFreq, decode_encode .buildTree, decode_encode .buildCodes, decode_encode .buildPart,
    decode_encode .huffEnc, decode_encode .huffDec, decode_encode .arithEnc, decode_encode .arithDec,
    decode_encode .pack, decode_encode .unpack⟩

/-! ### Illegal words -/

theorem step_of_engineMoves {s : State} (h : s.engineMoves = true) : step s = engineStep s := if_pos h

theorem engineStep_of_error {s : State} {e : DecodeError} (h : decode s.cmd = .error e) :
    engineStep s = .next (s.complete (some .illegalCommand)) := by
  rw [engineStep, h]
  rfl

/-- Settles O10: the write is an issue, as of any word, and ENGINE's step finds a word that is rejected
(`decode_illegal`). -/
theorem illegalWordCompletesWithItsError : Obligations.IllegalWordCompletesWithItsError := by
  intro w hw
  refine ⟨fun s hb => ⟨s.issue w, hostRegWrite_idle hb .cmd w, rfl, rfl⟩, fun s hcmd hm => ?_⟩
  obtain ⟨e, he⟩ := decode_illegal hw
  exact (step_of_engineMoves hm).trans (engineStep_of_error (hcmd ▸ he))

/-! ### Host statements -/

theorem getElem?_map_range {α : Type} (f : Nat → α) (n j : Nat) :
    ((List.range n).map f)[j]? = if j < n then some (f j) else none := by
  by_cases h : j < n <;> simp [h]

/-- Operation j of `mwr` writes byte j of its list. -/
theorem expandStmt_mwr_getElem? (a : Nat) (bs : List Byte) (j : Nat) :
    (expandStmt (.mwr a bs))[j]? = bs[j]?.map (fun b => .memWrite (a + j) b) := by
  rw [expandStmt, getElem?_map_range]
  by_cases h : j < bs.length <;> simp [h]

/-- Settles O25: every statement but `mwr` and `mrd` expands to a fixed list; those two are maps over the positions of
their bytes (`getElem?_map_range`). -/
theorem hostStatementsEncode : Obligations.HostStatementsEncode := by
  have hmrd : ∀ a n j : Nat, (expandStmt (.mrd a n))[j]? = if j < n then some (.memRead (a + j)) else none :=
    fun a n j => getElem?_map_range (fun i => HostOp.memRead (a + i)) n j
  exact ⟨rfl, rfl, rfl, decode_of_reserved_ne (by decide), by decide, fun _ _ => rfl, fun _ => rfl,
    expandStmt_mwr_getElem?, hmrd, fun _ => rfl, rfl, fun _ => rfl, fun _ _ => rfl, fun _ _ => rfl, fun _ _ => rfl⟩

/-! ### One pass of wait -/

theorem step_of_host {s : State} {op : HostOp} {rest : List HostOp} (hm : s.engineMoves = false)
    (hh : s.host = op :: rest) : step s = hostStep op rest s := by
  simp [step, hm, hh]

/-- A read of a register that keeps its value while BUSY = 1 draws no free value (40_control.md R153). -/
theorem afterRegRead_kept {r : RegName} (h : freeWhileBusy r = false) (s : State) :
    s.afterRegRead (registerOffset r)
      = { s with replies := .reg (registerOffset r) (s.regValue r) :: s.replies } := by
  simp [State.afterRegRead, registerAt_registerOffset, State.readSlot, State.readDraws, h]

/-- STATUS is one of those registers, so a pass of `wait` only records the read and keeps its place in the queue while
BUSY = 1. -/
theorem hostWait_eq (s : State) :
    hostWait s = .next { s with
      host := if s.status.busy then .wait :: s.host else s.host
      replies := .reg 0x00C (s.regValue .status) :: s.replies } := by
  rw [hostWait, afterRegRead_kept (r := .status) rfl]
  rfl

/-- Settles O26: HOST's step is `hostWait` with one turn used up. -/
theorem waitPollsStatus : Obligations.WaitPollsStatus := fun s rest hm hh =>
  (step_of_host hm hh).trans (hostWait_eq { s with host := rest, hostTurns := s.hostTurns - 1 })

end Sys2Proof.Proofs
end

section
/-! What every command shares (spec/40_control.md R154 to R158): its completion, the checks of steps 2 to 4, what an
error leaves, and what a success may write; and the two control commands (R160, R161). -/

namespace Sys2Proof.Proofs

open Sys2Proof Sys2Proof.Machine Sys2Proof.Laws Sys2Proof.Claims

/-! ### Completion -/

/-- Whatever its outcome, a command ends in the completion of 40_control.md R154. -/
theorem exec_completes (i : Instr) (s : State) :
    ∃ t e, exec i s = .next t ∧ t.status = s.status.completed e ∧ t.latched = none := by
  rcases exec_cases i s with ⟨e, _, hx⟩ | ⟨_, ⟨e, _, hx⟩ | ⟨e, _, hx⟩ | ⟨u, hb, hx⟩⟩
  · exact ⟨_, some e, hx, rfl, rfl⟩
  · exact ⟨_, some e, hx, rfl, rfl⟩
  · exact ⟨_, some e, hx, rfl, rfl⟩
  · exact ⟨_, none, hx, congrArg (Status.completed · none) (bodyOf_commit_same hb).status, rfl⟩

/-- Settles O28: STATUS is that of a completion (`exec_completes`), whose ERR is 1 exactly when its code is not 0. -/
theorem everyCommandCompletes : Obligations.EveryCommandCompletes := by
  intro i s
  obtain ⟨t, e, hx, hst, hl⟩ := exec_completes i s
  refine ⟨t, hx, ?_, ?_, ?_, ?_, hl⟩ <;> rw [hst]
  · rfl
  · rfl
  · exact isSome_iff_outcomeCode_ne e
  · rfl

/-- A command ends with ERRCODE 0 only by committing. -/
theorem exec_success {i : Instr} {s t : State} (h : exec i s = .next t) (hc : t.status.errcode = 0) :
    ∃ u, bodyOf i s.operands s = .commit u ∧ t = u.complete none := by
  have hne : ∀ e, errorCode e ≠ 0 := fun e => (isSome_iff_outcomeCode_ne (some e)).mp rfl
  rcases exec_cases i s with ⟨e, _, hx⟩ | ⟨_, ⟨e, _, hx⟩ | ⟨e, _, hx⟩ | ⟨u, hb, hx⟩⟩ <;>
    obtain rfl := Host.Outcome.next.inj (hx.symm.trans h)
  · exact absurd hc (hne e)
  · exact absurd hc (hne e)
  · exact absurd hc (hne e)
  · exact ⟨u, hb, rfl⟩

/-! ### The checks of steps 2 to 4 -/

/-- The columns "src", "dst" and "needs" of the statements' operand table are those of the model's. -/
theorem readsSource_eq (i : Instr) : readsSource i = (usesOf i).readsSrc := by
  cases i <;> rfl

theorem writesDest_eq (i : Instr) : writesDest i = (usesOf i).writesDst := by
  cases i <;> rfl

theorem guardsCount_eq (i : Instr) : (i == .arithDec) = (usesOf i).guardsCount := by
  cases i <;> rfl

theorem bitMissing_eq (i : Instr) (s : State) : bitMissing i s = notBuilt (usesOf i) s.model := by
  cases i <;> simp [bitMissing, notBuilt, usesOf, ModelReg.valid]

theorem overLimit_eq (i : Instr) (s : State) : overLimit i s = limitExceeded (usesOf i) s.operands := by
  rw [overLimit, readsSource_eq, guardsCount_eq]
  rfl

theorem badRange_eq (i : Instr) (s : State) : badRange i s = rangeFails (usesOf i) s.operands s.memSize := by
  rw [badRange, readsSource_eq, writesDest_eq]
  simp only [Bool.or_assoc, Bool.and_assoc]
  rfl

theorem exec_earlyError {i : Instr} {s : State} {e : CmdError} (h : earlyError (usesOf i) s.operands s = some e) :
    exec i s = .next (failed (errorCode e) s) := by
  rw [exec_eq_runCommand, runCommand_raises h]
  rfl

/-- Settles O29: the statement's conditions are the model's, and the first that holds is the error
(`earlyError_some_iff`). -/
theorem earlyChecksInOrder : Obligations.EarlyChecksInOrder := by
  intro i s
  have hraise := fun e => earlyError_some_iff (usesOf i) s.operands s e
  rw [overLimit_eq, badRange_eq, bitMissing_eq]
  exact ⟨fun hlim => exec_earlyError ((hraise .limitExceeded).mpr (.inl ⟨hlim, rfl⟩)),
    fun hlim hrange => exec_earlyError ((hraise .range).mpr (.inr (.inl ⟨hlim, hrange, rfl⟩))),
    fun hlim hrange hbit => exec_earlyError ((hraise .modelNotBuilt).mpr (.inr (.inr ⟨hlim, hrange, hbit, rfl⟩)))⟩

/-! ### What an error leaves -/

/-- An error of step 6 or 7 draws the bytes of the destination range anew and touches no other. -/
theorem failedLate_raiseLate (s : State) (e : CmdError) : failedLate (errorCode e) s (s.raiseLate e) := by
  have hlen : (s.drawnBytes s.operands.dstCap.toNat).length = s.operands.dstCap.toNat := by simp [State.drawnBytes]
  have hread : ∀ a, (s.raiseLate e).readByte a
      = (s.writeBytes s.operands.dstAddr.toNat (s.drawnBytes s.operands.dstCap.toNat)).readByte a :=
    readByte_congr rfl rfl
  refine ⟨rfl, fun x hx => ?_, fun k hk => ?_⟩
  · rw [hread, readByte_writeBytes_outside _ _ _ _ (by rwa [hlen])]
  · rw [hread, readByte_writeBytes_inside _ _ _ _ (by rwa [hlen])]
    simp [State.drawnBytes]

/-- Settles O30: steps 2 to 4 raise the codes 8, 6 and 5 (`earlyError_some_iff`), step 5 the codes 1 and 3
(`bodyOf_early`), steps 6 and 7 the codes 2 and 7 (`bodyOf_late`), and a commit has no error. -/
theorem errorsArePrecise : Obligations.ErrorsArePrecise := by
  refine ⟨fun i s t h hc => ?_, fun s e he => engineStep_of_error he⟩
  rcases exec_cases i s with ⟨e, he, hx⟩ | ⟨_, ⟨e, he, hx⟩ | ⟨e, he, hx⟩ | ⟨u, _, hx⟩⟩ <;>
    obtain rfl := Host.Outcome.next.inj (hx.symm.trans h)
  · have hmem : errorCode e ∈ [1#4, 3#4, 4#4, 5#4, 6#4, 8#4] := by
      rcases (earlyError_some_iff ..).mp he with ⟨_, rfl⟩ | ⟨_, _, rfl⟩ | ⟨_, _, _, rfl⟩ <;> decide
    exact Or.inl ⟨hmem, rfl⟩
  · have hmem : errorCode e ∈ [1#4, 3#4, 4#4, 5#4, 6#4, 8#4] := by
      rcases bodyOf_early he with rfl | rfl <;> decide
    exact Or.inl ⟨hmem, rfl⟩
  · have hmem : errorCode e ∈ [2#4, 7#4] := by
      rcases (bodyOf_late he).2 with rfl | rfl <;> decide
    exact Or.inr ⟨hmem, failedLate_raiseLate s e⟩
  · exact absurd rfl hc

/-! ### What a success writes -/

theorem buildPart_commit {p : Operands} {s t : State} (h : buildPartBody p s = .commit t) :
    t = { s with cum := buildCum s.freq, model := s.model.partBuilt } := by
  rw [buildPartBody] at h
  split at h <;> cases h
  rfl

/-- A command without a destination range commits tables, TOTAL and MODEL only. -/
theorem bodyOf_commit_noOutput {i : Instr} {p : Operands} {s t : State} (hw : (usesOf i).writesDst = false)
    (h : bodyOf i p s = .commit t) :
    t.bitLen = s.bitLen ∧ t.symCount = s.symCount ∧ t.outLen = s.outLen ∧ t.mem = s.mem := by
  cases i with
  | nop | clearModel | scan | buildTree | buildCodes =>
    cases h
    exact ⟨rfl, rfl, rfl, rfl⟩
  | loadFreq =>
    obtain ⟨_, rfl⟩ := loadFreq_commit h
    exact ⟨rfl, rfl, rfl, rfl⟩
  | buildPart =>
    obtain rfl := buildPart_commit (p := p) h
    exact ⟨rfl, rfl, rfl, rfl⟩
  | saveFreq | huffEnc | huffDec | arithEnc | arithDec | pack | unpack => cases hw

/-- The tables, TOTAL and MODEL a command's row does not list are as before (40_control.md R157). -/
structure KeepsUnlistedTables (i : Instr) (s t : State) : Prop where
  freq : i ∉ [Instr.clearModel, .scan, .loadFreq] → t.freq = s.freq ∧ t.total = s.total
  arena : i ∉ [Instr.clearModel, .buildTree] → t.arena = s.arena
  code : i ∉ [Instr.clearModel, .buildCodes] → t.code = s.code
  cum : i ∉ [Instr.clearModel, .buildPart] → t.cum = s.cum
  model : i ∉ [Instr.clearModel, .scan, .loadFreq, .buildTree, .buildCodes, .buildPart] → t.model = s.model

theorem bodyOf_commit_keepsUnlistedTables {i : Instr} {p : Operands} {s t : State} (h : bodyOf i p s = .commit t) :
    KeepsUnlistedTables i s t := by
  by_cases hw : (usesOf i).writesDst = true
  · obtain ⟨out, _, ht⟩ := bodyOf_commit_store hw h
    rw [ht]
    exact ⟨fun _ => ⟨rfl, rfl⟩, fun _ => rfl, fun _ => rfl, fun _ => rfl, fun _ => rfl⟩
  · cases i with
    | nop =>
      cases h
      exact ⟨fun _ => ⟨rfl, rfl⟩, fun _ => rfl, fun _ => rfl, fun _ => rfl, fun _ => rfl⟩
    | clearModel => constructor <;> exact fun hi => absurd (by decide) hi
    | scan =>
      cases h
      exact ⟨fun hi => absurd (by decide) hi, fun _ => rfl, fun _ => rfl, fun _ => rfl,
        fun hi => absurd (by decide) hi⟩
    | loadFreq =>
      obtain ⟨_, rfl⟩ := loadFreq_commit h
      exact ⟨fun hi => absurd (by decide) hi, fun _ => rfl, fun _ => rfl, fun _ => rfl,
        fun hi => absurd (by decide) hi⟩
    | buildTree =>
      cases h
      exact ⟨fun _ => ⟨rfl, rfl⟩, fun hi => absurd (by decide) hi, fun _ => rfl, fun _ => rfl,
        fun hi => absurd (by decide) hi⟩
    | buildCodes =>
      cases h
      exact ⟨fun _ => ⟨rfl, rfl⟩, fun _ => rfl, fun hi => absurd (by decide) hi, fun _ => rfl,
        fun hi => absurd (by decide) hi⟩
    | buildPart =>
      obtain rfl := buildPart_commit (p := p) h
      exact ⟨fun _ => ⟨rfl, rfl⟩, fun _ => rfl, fun _ => rfl, fun hi => absurd (by decide) hi,
        fun hi => absurd (by decide) hi⟩
    | saveFreq | huffEnc | huffDec | arithEnc | arithDec | pack | unpack => exact absurd rfl hw

/-- One byte string written from DST_ADDR on, inside the capacity, with OUT_LEN its length. -/
def StoresOutput (p : Operands) (s t : State) : Prop :=
  ∃ out : List Byte, out.length ≤ p.dstCap.toNat ∧ t.outLen = BitVec.ofNat 32 out.length
    ∧ t.mem = Memory.writeBytes s.mem p.dstAddr.toNat out

/-- The lengths a command's row does not list are as before, and a destination range takes one byte string
(40_control.md R157). -/
structure WritesListedOutput (i : Instr) (p : Operands) (s t : State) : Prop where
  bitLen : i ∉ [Instr.huffEnc, .arithEnc, .pack] → t.bitLen = s.bitLen
  symCount : i ∉ [Instr.huffEnc, .huffDec, .arithEnc] → t.symCount = s.symCount
  output : (usesOf i).writesDst = true → StoresOutput p s t

section
variable {p : Operands} {s t : State}

theorem storeOutput_stores {out : List Byte} (h : storeOutput p out s = .commit t) :
    t.bitLen = s.bitLen ∧ t.symCount = s.symCount ∧ StoresOutput p s t := by
  obtain ⟨hl, rfl⟩ := storeOutput_commit h
  exact ⟨rfl, rfl, out, hl, rfl, rfl⟩

/-- A packed store is a store of the packed bytes after BIT_LEN took the number of bits. -/
theorem storePacked_stores {bits : Bits} (h : storePacked p bits s = .commit t) :
    t.symCount = s.symCount ∧ StoresOutput p s t := by
  rw [storePacked] at h
  split at h
  · cases h
  · exact (storeOutput_stores h).2

theorem bodyOf_commit_writesListedOutput {i : Instr} (h : bodyOf i p s = .commit t) : WritesListedOutput i p s t := by
  cases hw : (usesOf i).writesDst with
  | false =>
    obtain ⟨hbit, hsym, _⟩ := bodyOf_commit_noOutput hw h
    exact ⟨fun _ => hbit, fun _ => hsym, fun hd => absurd (hw.symm.trans hd) Bool.false_ne_true⟩
  | true =>
    cases i with
    | nop | clearModel | scan | loadFreq | buildTree | buildCodes | buildPart => cases hw
    | saveFreq =>
      obtain ⟨hbit, hsym, hout⟩ := storeOutput_stores h
      exact ⟨fun _ => hbit, fun _ => hsym, fun _ => hout⟩
    | huffEnc =>
      simp only [bodyOf, huffEncBody] at h
      split at h
      · cases h
      · exact ⟨fun hi => absurd (by decide) hi, fun hi => absurd (by decide) hi, fun _ => (storePacked_stores h).2⟩
    | arithEnc =>
      simp only [bodyOf, arithEncBody] at h
      split at h
      · cases h
      · exact ⟨fun hi => absurd (by decide) hi, fun hi => absurd (by decide) hi, fun _ => (storePacked_stores h).2⟩
    | huffDec =>
      simp only [bodyOf, huffDecBody] at h
      split at h
      · cases h
      · split at h
        · cases h
        · obtain ⟨hbit, _, hout⟩ := storeOutput_stores h
          exact ⟨fun _ => hbit, fun hi => absurd (by decide) hi, fun _ => hout⟩
    | arithDec =>
      simp only [bodyOf, arithDecBody] at h
      split at h
      · cases h
      · split at h
        · cases h
        · obtain ⟨hbit, hsym, hout⟩ := storeOutput_stores h
          exact ⟨fun _ => hbit, fun _ => hsym, fun _ => hout⟩
    | pack =>
      simp only [bodyOf, packBody] at h
      split at h
      · obtain ⟨hsym, hout⟩ := storePacked_stores h
        exact ⟨fun hi => absurd (by decide) hi, fun _ => hsym, fun _ => hout⟩
      · cases h
    | unpack =>
      simp only [bodyOf, unpackBody] at h
      split at h
      · cases h
      · obtain ⟨hbit, hsym, hout⟩ := storeOutput_stores h
        exact ⟨fun _ => hbit, fun _ => hsym, fun _ => hout⟩

/-- The string ends where OUT_LEN says, and no byte outside it changed. -/
theorem StoresOutput.inside (h : StoresOutput p s t) (hr : t.resets = s.resets) :
    t.outLen.toNat ≤ p.dstCap.toNat ∧ sameOutside s t p.dstAddr.toNat t.outLen.toNat := by
  obtain ⟨out, hl, hout, hmem⟩ := h
  have hcap := p.dstCap.isLt
  have hlen : t.outLen.toNat = out.length := by
    rw [hout, BitVec.toNat_ofNat]
    omega
  rw [hlen]
  refine ⟨hl, fun x hx => ?_⟩
  calc t.readByte x = (s.writeBytes p.dstAddr.toNat out).readByte x := readByte_congr (s := s.writeBytes _ _) hmem hr x
    _ = s.readByte x := readByte_writeBytes_outside _ _ _ _ hx

/-- Beside what some row lists, a commit and its completion change STATUS and P only. -/
theorem complete_eq_of_sameSurroundings (h : SameSurroundings s t) :
    t.complete none = { done s with
      freq := t.freq, total := t.total, arena := t.arena, code := t.code, cum := t.cum, model := t.model,
      bitLen := t.bitLen, symCount := t.symCount, outLen := t.outLen, mem := t.mem } := by
  simp only [State.complete, done, Status.completed, h.cmd, h.status, h.irqEn, h.sizeLimit, h.srcAddr, h.srcLen,
    h.dstAddr, h.dstCap, h.freqIdx, h.nodeIdx, h.codeIdx, h.partIdx, h.memTop, h.resets, h.draws, h.host, h.latencies,
    h.replies]
  rfl

end

/-- Settles O34: a success is a commit (`exec_success`); it keeps the tables and lengths its row does not list
(`bodyOf_commit_keepsUnlistedTables`, `bodyOf_commit_writesListedOutput`), MEM and OUT_LEN where it has no destination
range (`bodyOf_commit_noOutput`), and its surroundings (`bodyOf_commit_same`). -/
theorem successWritesOnlyItsRow : Obligations.SuccessWritesOnlyItsRow := by
  intro i s t h hc
  obtain ⟨u, hb, rfl⟩ := exec_success h hc
  obtain ⟨hfreq, harena, hcode, hcum, hmodel⟩ := bodyOf_commit_keepsUnlistedTables hb
  obtain ⟨hbit, hsym, hout⟩ := bodyOf_commit_writesListedOutput hb
  have hsame := bodyOf_commit_same hb
  rw [writesDest_eq]
  refine ⟨hfreq, harena, hcode, hcum, hmodel, hbit, hsym, fun hw => ?_, fun hw => (hout hw).inside hsame.resets,
    complete_eq_of_sameSurroundings hsame⟩
  obtain ⟨_, _, hlen, hmem⟩ := bodyOf_commit_noOutput hw hb
  exact ⟨hlen, readByte_congr hmem hsame.resets⟩

/-! ### The valid bits -/

/-- The three valid bits of MODEL (40_control.md R158). -/
def validBits (m : ModelReg) : Bool × Bool × Bool := (m.treeValid, m.codesValid, m.partValid)

/-- Settles O35: an error changes no table and not MODEL (`errorsArePrecise`); the commands with a line of their own in
the table change MODEL as it says, and no other changes MODEL (`successWritesOnlyItsRow`). -/
theorem validBitsFollowTheTable : Obligations.ValidBitsFollowTheTable := by
  intro i s t h
  refine ⟨fun hc => ?_, fun hc => ?_⟩
  · rcases errorsArePrecise.1 i s t h hc with ⟨_, ht⟩ | ⟨_, ht, _⟩ <;> exact (congrArg State.model ht).trans rfl
  · obtain ⟨_, _, _, _, hmodel, _⟩ := successWritesOnlyItsRow i s t h hc
    obtain ⟨u, hb, rfl⟩ := exec_success h hc
    cases i with
    | clearModel | scan | buildTree | buildCodes => cases hb; rfl
    | loadFreq =>
      obtain ⟨_, rfl⟩ := loadFreq_commit hb
      rfl
    | buildPart =>
      obtain rfl := buildPart_commit (p := s.operands) hb
      rfl
    | nop | saveFreq | huffEnc | huffDec | arithEnc | arithDec | pack | unpack =>
      exact congrArg validBits (hmodel (by decide))

/-! ### NOP and CLEAR_MODEL -/

/-- Settles O36: NOP passes the checks and commits the state as it is. -/
theorem nopOnlyCompletes : Obligations.NopOnlyCompletes := fun s =>
  exec_commit (i := .nop) (earlyError_free s.operands s) rfl

/-- Settles O37: CLEAR_MODEL passes the checks and commits tables with one entry throughout. -/
theorem clearModelEmptiesTheModel : Obligations.ClearModelEmptiesTheModel := fun s =>
  ⟨Table.replicate 256 0, Table.replicate 511 .unused, Table.replicate 256 [], Table.replicate 257 0,
    exec_commit (i := .clearModel) (earlyError_free s.operands s) rfl,
    fun _ hi => table_get_replicate_of_lt _ _ hi, fun _ hi => table_get_replicate_of_lt _ _ hi,
    fun _ hi => table_get_replicate_of_lt _ _ hi, fun _ hi => table_get_replicate_of_lt _ _ hi⟩

end Sys2Proof.Proofs
end

section
/-! The two agents and the register port while a command runs and while none does (spec/40_control.md R150 to R154,
spec/20_memory.md R113, spec/70_reset_and_hazards.md R351). -/

namespace Sys2Proof.Proofs

open Sys2Proof Sys2Proof.Machine Sys2Proof.Laws Sys2Proof.Claims

/-! ### Whose step it is -/

theorem engineStep_of_ok {s : State} {i : Instr} (h : decode s.cmd = .ok i) : engineStep s = exec i s := by
  rw [engineStep, h]

theorem engineMoves_of_idle {s : State} (h : s.status.busy = false) : s.engineMoves = false := by
  simp [State.engineMoves, h]

/-- While a command runs HOST moves as long as it has turns planned and operations left. -/
theorem engineMoves_running_iff {s : State} (hb : s.status.busy = true) :
    s.engineMoves = true ↔ s.hostTurns = 0 ∨ s.host = [] := by
  simp [State.engineMoves, hb]

theorem step_of_nothingLeft {s : State} (hm : s.engineMoves = false) (hh : s.host = []) : step s = .next s := by
  simp [step, hm, hh]

theorem tableWord_toNat (w : Word) : tableWord 32 w.toNat = w := by
  rw [tableWord, Nat.mod_eq_of_lt w.isLt, BitVec.ofNat_toNat, BitVec.setWidth_eq]

theorem step_withFetchWord (s : State) (i : Instr) :
    step (s.withFetchWord 32 (encode i).toNat) = exec i (s.withFetchWord 32 (encode i).toNat) := by
  rw [State.withFetchWord, tableWord_toNat]
  exact (step_of_engineMoves rfl).trans (engineStep_of_ok (decode_encode i))

/-- Settles O9: each clause is one branch of `step`, and the word issued is one that decodes. -/
theorem stepRunsTheDecodedCommand : Obligations.StepRunsTheDecodedCommand :=
  ⟨fun _ _ hm hd => (step_of_engineMoves hm).trans (engineStep_of_ok hd), fun _ _ _ hm hh => step_of_host hm hh,
    fun _ hb hh => step_of_nothingLeft (engineMoves_of_idle hb) hh, fun s i => ⟨step_withFetchWord s i, rfl⟩⟩

/-! ### Issue -/

/-- Settles O13: the write is `State.issue`, and ENGINE's step reads the word it stored. -/
theorem cmdWriteIssuesAndLatches : Obligations.CmdWriteIssuesAndLatches := fun s w hb =>
  ⟨s.issue w, hostRegWrite_idle hb .cmd w, rfl, fun _ hd => engineStep_of_ok hd, fun _ hd => engineStep_of_error hd⟩

/-! ### Writes while a command runs -/

/-- Every write but to STATUS and IRQ_EN is dropped. -/
theorem writeSlot_dropped {s : State} (hb : s.status.busy = true) {r : Option RegName} (hst : r ≠ some .status)
    (hirq : r ≠ some .irqEn) (v : Word) : s.writeSlot r v = s.dropWrite := by
  unfold State.writeSlot
  rw [if_pos hb]
  split
  · exact absurd rfl hst
  · exact absurd rfl hirq
  · rfl

theorem registerAt_ne_of_offset_ne {off : Nat} {r : RegName} (h : off ≠ registerOffset r) : registerAt off ≠ some r :=
  fun hr => h (registerOffset_of_registerAt hr).symm

/-- Settles O14: STATUS and IRQ_EN stand at the two offsets excepted, so a write at any other is dropped. -/
theorem writesWhileBusyAreDropped : Obligations.WritesWhileBusyAreDropped := by
  intro s off v hb h4 hlt
  refine ⟨fun hst hirq => ?_, fun h => ?_, fun h => ?_⟩
  · rw [hostRegWrite_of_ok (regAccessOk_iff.mpr ⟨rfl, h4, hlt⟩),
      writeSlot_dropped hb (registerAt_ne_of_offset_ne hst) (registerAt_ne_of_offset_ne hirq)]
    rfl
  · rw [h, hostRegWrite_status]
    rfl
  · rw [h, hostRegWrite_irqEn]

/-! ### Reads -/

theorem hostRegRead_of_ok {width off : Nat} (h : regAccessOk width off = true) (s : State) :
    hostRegRead width off s = .next (s.afterRegRead off) :=
  hostRegRead_eq_next_iff.mpr ⟨h, rfl⟩

/-- A result register or window answers a drawn value while a command runs. -/
theorem afterRegRead_drawn {s : State} (hb : s.status.busy = true) {r : RegName} (h : freeWhileBusy r = true) :
    s.afterRegRead (registerOffset r) = { s with
      replies := .reg (registerOffset r) (Config.freeWord s.draws) :: s.replies
      draws := s.draws + 1 } := by
  simp [State.afterRegRead, registerAt_registerOffset, State.readSlot, State.readDraws, hb, h]

/-- Every register answers its value while no command runs. -/
theorem afterRegRead_idle {s : State} (hb : s.status.busy = false) (r : RegName) :
    s.afterRegRead (registerOffset r)
      = { s with replies := .reg (registerOffset r) (s.regValue r) :: s.replies } := by
  simp [State.afterRegRead, registerAt_registerOffset, State.readSlot, State.readDraws, hb]

theorem afterRegRead_reserved {off : Nat} (h : registerAt off = none) (s : State) :
    s.afterRegRead off = { s with replies := .reg off 0 :: s.replies } := by
  simp [State.afterRegRead, h, State.readSlot, State.readDraws]

/-- Settles O17: the two lists are those of `freeWhileBusy`, and the offsets of the last clause are reserved slots. -/
theorem registerReadsReturn : Obligations.RegisterReadsReturn := by
  intro s
  refine ⟨fun r => ?_, fun off h4 hoff => ?_⟩
  · rw [hostRegRead_of_ok (regAccessOk_registerOffset r)]
    refine ⟨fun hb hr => ?_, fun _ hr => ?_, fun hb => congrArg _ (afterRegRead_idle hb r)⟩
    · exact congrArg _ (afterRegRead_drawn hb ((by decide : ∀ q ∈ _, freeWhileBusy q = true) r hr))
    · exact congrArg _ (afterRegRead_kept ((by decide : ∀ q ∈ _, freeWhileBusy q = false) r hr) s)
  · have hnone : registerAt off = none := hoff.elim (fun h => h ▸ rfl) fun h => registerAt_past h.1
    have hok : regAccessOk 32 off = true := regAccessOk_iff.mpr ⟨rfl, h4, by omega⟩
    rw [hostRegRead_of_ok hok, afterRegRead_reserved hnone]

/-! ### An issued command completes -/

/-- The host operations of 70_reset_and_hazards.md R351: register accesses the core defines, and `wait`. -/
def UsesRegisterPort (op : HostOp) : Prop :=
  op = .wait
    ∨ (∃ off v, off % 4 = 0 ∧ off < 0x100 ∧ op = .regWrite 32 off v)
    ∨ ∃ off, off % 4 = 0 ∧ off < 0x100 ∧ op = .regRead 32 off

/-- A register write while a command runs leaves it running, with its plan and HOST's operations. -/
theorem writeSlot_running {s : State} (hb : s.status.busy = true) (r : Option RegName) (v : Word) :
    (s.writeSlot r v).status.busy = true ∧ (s.writeSlot r v).hostTurns = s.hostTurns
      ∧ (s.writeSlot r v).host = s.host := by
  unfold State.writeSlot
  rw [if_pos hb]
  split <;> exact ⟨hb, rfl, rfl⟩

/-- Such an operation leaves the running command and its plan, and adds at most a `wait` to what HOST has to do. -/
theorem hostOp_registerPort {op : HostOp} (h : UsesRegisterPort op) {s : State} (hb : s.status.busy = true) :
    ∃ t, hostOp op s = .next t ∧ t.status.busy = true ∧ t.hostTurns = s.hostTurns
      ∧ (t.host = s.host ∨ t.host = .wait :: s.host) := by
  obtain rfl | ⟨off, v, h4, hlt, rfl⟩ | ⟨off, h4, hlt, rfl⟩ := h
  · exact ⟨_, hostWait_eq s, hb, rfl, Or.inr (if_pos hb)⟩
  · obtain ⟨hbusy, hturns, hhost⟩ := writeSlot_running hb (registerAt off) v
    exact ⟨_, hostRegWrite_of_ok (regAccessOk_iff.mpr ⟨rfl, h4, hlt⟩) v s, hbusy, hturns, Or.inl hhost⟩
  · exact ⟨_, hostRegRead_of_ok (regAccessOk_iff.mpr ⟨rfl, h4, hlt⟩) s, hb, rfl, Or.inl rfl⟩

/-- HOST's step while a command runs uses up one of the turns planned before its completion. -/
theorem step_running {s : State} (hb : s.status.busy = true) (hops : ∀ op ∈ s.host, UsesRegisterPort op)
    (hm : s.engineMoves = false) :
    ∃ t, step s = .next t ∧ t.status.busy = true ∧ t.hostTurns + 1 = s.hostTurns
      ∧ ∀ op ∈ t.host, UsesRegisterPort op := by
  have hnot := mt (engineMoves_running_iff hb).mpr (Bool.eq_false_iff.mp hm)
  obtain ⟨hturns, hhost⟩ := not_or.mp hnot
  obtain ⟨op, rest, hh⟩ := List.exists_cons_of_ne_nil hhost
  rw [hh] at hops
  obtain ⟨hop, hrest⟩ := List.forall_mem_cons.mp hops
  obtain ⟨t, ht, hbusy, hleft, hnext⟩ :=
    hostOp_registerPort hop (s := { s with host := rest, hostTurns := s.hostTurns - 1 }) hb
  refine ⟨t, (step_of_host hm hh).trans ht, hbusy, by rw [hleft]; exact Nat.sub_add_cancel (by omega), ?_⟩
  rcases hnext with hnext | hnext <;> rw [hnext]
  · exact hrest
  · exact List.forall_mem_cons.mpr ⟨Or.inl rfl, hrest⟩

/-- ENGINE's step is a completion, whatever word stands in CMD. -/
theorem engineStep_completes (s : State) : ∃ t e, engineStep s = .next t ∧ t.status = s.status.completed e := by
  cases hd : decode s.cmd with
  | ok i =>
    obtain ⟨t, e, hx, hst, _⟩ := exec_completes i s
    exact ⟨t, e, (engineStep_of_ok hd).trans hx, hst⟩
  | error d => exact ⟨_, some .illegalCommand, engineStep_of_error hd, rfl⟩

theorem run_of_engineMoves {s : State} (hm : s.engineMoves = true) :
    ∃ t, core.run 1 s = .next t ∧ State.status t = ⟨false, true, (State.status t).err, (State.status t).errcode,
      (State.status t).ovr⟩ := by
  obtain ⟨t, e, he, hst⟩ := engineStep_completes s
  refine ⟨t, run_succ ((step_of_engineMoves hm).trans he) 0, ?_⟩
  rw [hst]
  rfl

/-- Settles O11, by induction on the turns planned: with ENGINE to move the next step is the completion
(`run_of_engineMoves`); otherwise HOST's next operation uses up a turn (`step_running`). -/
theorem issuedCommandCompletes : Obligations.IssuedCommandCompletes := by
  intro s hb hops
  induction hk : s.hostTurns generalizing s with
  | zero =>
    obtain ⟨t, hrun, hst⟩ := run_of_engineMoves ((engineMoves_running_iff hb).mpr (Or.inl hk))
    exact ⟨1, t, le_rfl, hrun, hst⟩
  | succ k ih =>
    cases hm : s.engineMoves with
    | true =>
      obtain ⟨t, hrun, hst⟩ := run_of_engineMoves hm
      exact ⟨1, t, by omega, hrun, hst⟩
    | false =>
      obtain ⟨u, hstep, hbusy, hturns, hrest⟩ := step_running hb hops hm
      obtain ⟨n, t, hn, hrun, hst⟩ := ih u hbusy hrest (by omega)
      exact ⟨n + 1, t, by omega, (run_succ hstep n).trans hrun, hst⟩

end Sys2Proof.Proofs
end

section
/-! The frequency model commands SCAN, LOAD_FREQ and SAVE_FREQ (spec/41_frequency.md R180 to R184): what CommitFreq
leaves, what the counting pass counts, and the image that SAVE_FREQ writes and LOAD_FREQ reads. -/

namespace Sys2Proof.Proofs

open Sys2Proof Sys2Proof.Machine Sys2Proof.Laws Sys2Proof.Claims

/-! ### How a command ends -/

/-- The code the statements give steps 2 to 4 is that of the model's error. -/
theorem earlyCode_eq (i : Instr) (s : State) :
    earlyCode i s = (earlyError (usesOf i) s.operands s).map errorCode := by
  rw [earlyCode, overLimit_eq, badRange_eq, bitMissing_eq, earlyError]
  split_ifs <;> rfl

theorem earlyError_of_earlyCode_none {i : Instr} {s : State} (h : earlyCode i s = none) :
    earlyError (usesOf i) s.operands s = none := by
  rwa [earlyCode_eq, Option.map_eq_none_iff] at h

theorem exec_earlyCode {i : Instr} {s : State} {c : BitVec 4} (h : earlyCode i s = some c) :
    exec i s = .next (failed c s) := by
  rw [earlyCode_eq] at h
  obtain ⟨e, he, rfl⟩ := Option.map_eq_some_iff.mp h
  exact exec_earlyError he

/-- A command that passes steps 2 to 4 ends as its own steps end. -/
theorem exec_of_bodyOf {i : Instr} {s : State} {r : CmdResult} (h : earlyCode i s = none)
    (hb : bodyOf i s.operands s = r) : exec i s = .next (s.conclude r) := by
  rw [exec_eq_runCommand, runCommand_passes (earlyError_of_earlyCode_none h), hb]

theorem storeOutput_of_overflow {p : Operands} {out : List Byte} (h : p.dstCap.toNat < out.length) (s : State) :
    storeOutput p out s = .late .dstOverflow := if_pos h

theorem storeOutput_of_fits {p : Operands} {out : List Byte} (h : out.length ≤ p.dstCap.toNat) (s : State) :
    storeOutput p out s
      = .commit { s.writeBytes p.dstAddr.toNat out with outLen := BitVec.ofNat 32 out.length } :=
  if_neg (Nat.not_lt.mpr h)

/-- A store that commits leaves its string from DST_ADDR on. -/
theorem holds_of_storeOutput {p : Operands} {out : List Byte} {s t : State} (h : storeOutput p out s = .commit t) :
    holds t p.dstAddr.toNat out := by
  obtain ⟨_, rfl⟩ := storeOutput_commit h
  intro j hj
  rw [List.getD_eq_getElem _ _ hj]
  exact readByte_writeBytes_inside s _ j out hj

/-! ### CommitFreq -/

/-- FREQ as CommitFreq stores a table of counts (41_frequency.md R181). -/
def freqOf (f : Table Nat 256) : Table Word 256 := f.map (BitVec.ofNat 32)

section
variable {f : Table Nat 256}

theorem get_le_countSum (f : Table Nat 256) (b : Byte) : f.get b.toNat 0 ≤ countSum f := by
  have hb : b.toNat < f.entries.length := b.isLt.trans_eq f.size_eq.symm
  rw [Table.get, List.getD_eq_getElem _ _ hb]
  exact entry_le_countSum (List.getElem_mem hb)

theorem count_freqOf (h : countSum f ≤ 0xFFFFFFFF) (b : Byte) : count (freqOf f) b = f.get b.toNat 0 := by
  have hle := get_le_countSum f b
  rw [count, freqOf, table_get_map (BitVec.ofNat 32) f 0 0 b.isLt, BitVec.toNat_ofNat]
  exact Nat.mod_eq_of_lt (by omega)

theorem freqSum_freqOf (h : countSum f ≤ 0xFFFFFFFF) : freqSum (freqOf f) = countSum f :=
  congrArg List.sum (toNat_map_commitFreq h)

theorem countDistinct_eq_present_length (h : countSum f ≤ 0xFFFFFFFF) :
    countDistinct f = (present (freqOf f)).length :=
  (countP_map_commitFreq h).symm.trans (countP_entries_eq_present_length (freqOf f))

/-- The completion of a CommitFreq: FREQ, TOTAL, DISTINCT, no valid bit, and nothing else. -/
theorem complete_commitFreq (h : countSum f ≤ 0xFFFFFFFF) (s : State) :
    (s.commitFreq f).complete none = { done s with
      freq := freqOf f
      total := BitVec.ofNat 32 (countSum f)
      model := freshModel (present (freqOf f)).length } := by
  rw [← countDistinct_eq_present_length h]
  rfl

end

/-! ### SCAN -/

theorem get_bumpCount (f : Table Nat 256) (b c : Byte) :
    (bumpCount f b).get c.toNat 0 = f.get c.toNat 0 + if b = c then 1 else 0 := by
  rw [bumpCount, table_get_set _ _ _ b.isLt]
  by_cases h : b = c
  · simp [h]
  · have hne : c.toNat ≠ b.toNat := fun heq => h (BitVec.eq_of_toNat_eq heq.symm)
    simp [h, hne]

theorem get_foldl_bumpCount (body : List Byte) (f : Table Nat 256) (c : Byte) :
    (body.foldl bumpCount f).get c.toNat 0 = f.get c.toNat 0 + body.count c := by
  induction body generalizing f with
  | nil => rfl
  | cons b rest ih =>
    rw [List.foldl_cons, ih, get_bumpCount, List.count_cons, Nat.add_assoc, Nat.add_comm (rest.count c)]
    simp only [beq_iff_eq]

/-- SCAN counts the positions of each symbol (41_frequency.md R180). -/
theorem get_scanCounts (body : List Byte) (c : Byte) : (scanCounts body).get c.toNat 0 = body.count c := by
  rw [scanCounts, get_foldl_bumpCount, table_get_replicate, Nat.zero_add]

theorem symbols_nodup : symbols.Nodup :=
  List.nodup_range.map_on fun i hi j hj h => by
    have hi := List.mem_range.mp hi
    have hj := List.mem_range.mp hj
    have := congrArg BitVec.toNat h
    simp only [BitVec.toNat_ofNat] at this
    omega

/-- The symbols present in the counts of a body are its different bytes. -/
theorem present_length_of_count_eq {f : Table Word 256} {body : List Byte} (h : ∀ b, count f b = body.count b) :
    (present f).length = body.dedup.length := by
  have hnodup : (present f).Nodup := symbols_nodup.filter _
  refine ((List.perm_ext_iff_of_nodup hnodup body.nodup_dedup).mpr fun b => ?_).length_eq
  rw [mem_present_iff, List.mem_dedup, h, List.count_pos_iff]

/-- Settles O38: SCAN commits the counts of the body (`get_scanCounts`), whose sum is its length
(`countSum_scanCounts`) and whose present symbols are its different bytes (`present_length_of_count_eq`). -/
theorem scanCountsTheBody : Obligations.ScanCountsTheBody := by
  intro s
  refine ⟨fun c hc => exec_earlyCode hc, fun h => ?_⟩
  have hsum : countSum (scanCounts (body s)) = s.operands.srcLen.toNat :=
    (countSum_scanCounts _).trans (readBytes_length s _ _)
  have hmax : countSum (scanCounts (body s)) ≤ 0xFFFFFFFF := by
    have hlen := s.operands.srcLen.isLt
    omega
  have hcount : ∀ b, count (freqOf (scanCounts (body s))) b = (body s).count b :=
    fun b => (count_freqOf hmax b).trans (get_scanCounts _ b)
  refine ⟨freqOf (scanCounts (body s)), ?_, hcount, (freqSum_freqOf hmax).trans hsum⟩
  calc exec .scan s = .next ((s.commitFreq (scanCounts (body s))).complete none) := exec_of_bodyOf h rfl
    _ = _ := by
      rw [complete_commitFreq hmax, hsum, BitVec.ofNat_toNat, BitVec.setWidth_eq, present_length_of_count_eq hcount]

/-! ### LOAD_FREQ -/

/-- The words of the image at an address, by symbol (41_frequency.md R183). -/
def imageWords (s : State) (a : Nat) : List Nat := symbols.map (fun b => word32 s (a + 4 * b.toNat))

theorem get_imageCounts (s : State) (a : Nat) (b : Byte) :
    (s.imageCounts a).get b.toNat 0 = word32 s (a + 4 * b.toNat) :=
  table_get_tabulate _ _ b.isLt

theorem countSum_imageCounts (s : State) (a : Nat) : countSum (s.imageCounts a) = (imageWords s a).sum := by
  rw [countSum, imageWords, symbols, List.map_map]
  refine congrArg List.sum (List.map_congr_left fun i hi => ?_)
  have hi : i < 256 := List.mem_range.mp hi
  simp only [Function.comp_apply, BitVec.toNat_ofNat, Nat.mod_eq_of_lt hi]
  rfl

section
variable {p : Operands} {s : State}

theorem loadFreqBody_of_short (h : p.srcLen.toNat < 1024) : loadFreqBody p s = .early .invalidInput := if_pos h

theorem loadFreqBody_of_sum_overflow (h : 1024 ≤ p.srcLen.toNat)
    (hsum : 0xFFFFFFFF < (imageWords s p.srcAddr.toNat).sum) : loadFreqBody p s = .early .invalidInput := by
  rw [loadFreqBody, imageSize, if_neg (Nat.not_lt.mpr h), countSum_imageCounts, if_pos hsum]

theorem loadFreqBody_of_sum_fits (h : 1024 ≤ p.srcLen.toNat)
    (hsum : (imageWords s p.srcAddr.toNat).sum ≤ 0xFFFFFFFF) :
    loadFreqBody p s = .commit (s.commitFreq (s.imageCounts p.srcAddr.toNat)) := by
  rw [loadFreqBody, imageSize, if_neg (Nat.not_lt.mpr h), countSum_imageCounts, if_neg (Nat.not_lt.mpr hsum)]

end

/-- Settles O39: past steps 2 to 4 each clause is a branch of `loadFreqBody`, and the last commits the words of the
image (`get_imageCounts`), which sum within 32 bits. -/
theorem loadFreqReadsTheImage : Obligations.LoadFreqReadsTheImage := by
  intro s
  refine ⟨fun c hc => exec_earlyCode hc, fun h hshort => exec_of_bodyOf h (loadFreqBody_of_short hshort),
    fun h hlen hsum => exec_of_bodyOf h (loadFreqBody_of_sum_overflow hlen hsum), fun h hlen hsum => ?_⟩
  have hmax : countSum (s.imageCounts s.operands.srcAddr.toNat) ≤ 0xFFFFFFFF :=
    (countSum_imageCounts s _).trans_le hsum
  refine ⟨freqOf (s.imageCounts s.operands.srcAddr.toNat), ?_,
    fun b => (count_freqOf hmax b).trans (get_imageCounts s _ b)⟩
  rw [exec_of_bodyOf h (loadFreqBody_of_sum_fits hlen hsum), conclude_commit, complete_commitFreq hmax,
    countSum_imageCounts, imageWords]

/-! ### SAVE_FREQ -/

theorem freqImage_length (f : Table Word 256) : (freqImage f).length = 1024 := by
  have hword : ∀ w ∈ f.entries, (le32Bytes w).length = 4 := fun _ _ => rfl
  rw [freqImage, List.length_flatMap, List.map_congr_left hword, List.map_const', List.sum_replicate, f.size_eq]
  rfl

/-- Byte k of word i of a string of words; past its end both are 0. -/
theorem flatMap_le32Bytes_getD (ws : List Word) (i : Nat) {k : Nat} (hk : k < 4) :
    (ws.flatMap le32Bytes).getD (4 * i + k) 0 = (le32Bytes (ws.getD i 0)).getD k 0 := by
  have hfour : ∀ w, (le32Bytes w).length = 4 := fun _ => rfl
  induction ws generalizing i with
  | nil =>
    have hzero : ∀ k, k < 4 → (le32Bytes 0).getD k 0 = 0 := by decide
    exact (hzero k hk).symm
  | cons w rest ih =>
    rw [List.flatMap_cons]
    cases i with
    | zero => rw [Nat.mul_zero, Nat.zero_add, List.getD_append _ _ _ _ hk, List.getD_cons_zero]
    | succ i =>
      rw [List.getD_append_right _ _ _ _ (by rw [hfour]; omega), hfour, List.getD_cons_succ, ← ih i]
      congr 1
      omega

/-- Where the image of FREQ stands in MEM, the word at offset 4b is FREQ[b] (41_frequency.md R183). -/
theorem word32_of_holds_freqImage {t : State} {a : Nat} {f : Table Word 256} (h : holds t a (freqImage f)) (b : Byte) :
    word32 t (a + 4 * b.toNat) = count f b := by
  have hbyte : ∀ k, k < 4 → t.readByte (a + 4 * b.toNat + k) = (le32Bytes (f.get b.toNat 0)).getD k 0 := fun k hk => by
    have hb := b.isLt
    rw [Nat.add_assoc, h _ (by rw [freqImage_length]; omega)]
    exact flatMap_le32Bytes_getD f.entries b.toNat hk
  rw [word32, hbyte 1 (by decide), hbyte 2 (by decide), hbyte 3 (by decide), ← Nat.add_zero (a + 4 * b.toNat),
    hbyte 0 (by decide)]
  exact le32_toNat _

/-- Settles O40: SAVE_FREQ is one store of the image, which is 1024 bytes long (`freqImage_length`) and holds the words
of FREQ (`word32_of_holds_freqImage`). -/
theorem saveFreqWritesTheImage : Obligations.SaveFreqWritesTheImage := by
  intro s
  have hlen := freqImage_length s.freq
  refine ⟨fun c hc => exec_earlyCode hc, fun h hcap => ?_, fun h hcap => ?_⟩
  · have hstore := storeOutput_of_overflow (hlen.symm ▸ hcap) s
    exact ⟨_, exec_of_bodyOf h hstore, failedLate_raiseLate s .dstOverflow⟩
  · have hstore := storeOutput_of_fits (hlen.trans_le hcap) s
    have himage := holds_of_storeOutput hstore
    refine ⟨_, exec_of_bodyOf h hstore, ?_, fun b => word32_of_holds_freqImage himage b, fun x hx => ?_⟩
    · rw [hlen]
      rfl
    · exact readByte_writeBytes_outside s _ x _ (by rwa [hlen])

/-! ### A saved image loaded -/

theorem freq_ext {f g : Table Word 256} (h : ∀ b, count f b = count g b) : f = g :=
  table_ext 0 fun i hi => BitVec.eq_of_toNat_eq (by
    have hb := h (BitVec.ofNat 8 i)
    rwa [count, count, BitVec.toNat_ofNat, Nat.mod_eq_of_lt (by omega)] at hb)

/-- Where the image of FREQ stands in MEM, its words sum to the sum of FREQ. -/
theorem imageWords_sum_of_holds {u : State} {a : Nat} {f : Table Word 256} (h : holds u a (freqImage f)) :
    (imageWords u a).sum = freqSum f := by
  rw [freqSum, entries_map_eq_symbols]
  exact congrArg List.sum (List.map_congr_left fun b _ => word32_of_holds_freqImage h b)

/-- Settles O41: the saved image stands in `u` (`holds_of_storeOutput`), so LOAD_FREQ reads the counts of `s`
(`loadFreqReadsTheImage`, `word32_of_holds_freqImage`), and a table is its counts (`freq_ext`). -/
theorem loadOfSavedImageRestoresFreq : Obligations.LoadOfSavedImageRestoresFreq := by
  intro s t u hsave hc hfits hbytes hlen hearly
  obtain ⟨w, hb, rfl⟩ := exec_success hsave hc
  have himage : holds u u.operands.srcAddr.toNat (freqImage s.freq) := fun j hj =>
    (hbytes j (freqImage_length s.freq ▸ hj)).trans (holds_of_storeOutput hb j hj)
  have hsum := imageWords_sum_of_holds himage
  obtain ⟨_, _, _, hload⟩ := loadFreqReadsTheImage u
  obtain ⟨f, hexec, hcount⟩ := hload hearly hlen (hsum.trans_le hfits)
  refine ⟨_, hexec, freq_ext fun b => (hcount b).trans (word32_of_holds_freqImage himage b), ?_, rfl⟩
  rw [← imageWords, hsum, BitVec.toNat_ofNat]
  exact Nat.mod_eq_of_lt (by omega)

end Sys2Proof.Proofs
end

section
/-! BUILD_TREE (spec/42_huffman.md R200 to R203): each turn of the merging loop takes the two active nodes that come
first by (weight, index), so the arena is the tree of FREQ; and the properties of a built tree. -/

namespace Sys2Proof.Proofs

open Sys2Proof Sys2Proof.Machine Sys2Proof.Laws Sys2Proof.Claims

/-! ### The order of extraction -/

/-- Least weight, and among equal weights least index (42_huffman.md R201). -/
theorem extractedBefore_iff {x y : Active} :
    extractedBefore x y = true ↔ x.1 < y.1 ∨ (x.1 = y.1 ∧ x.2 ≤ y.2) := by
  simp [extractedBefore]

/-- The node extracted comes before every node left active. -/
theorem extractLeast_before {active rest : List Active} {x : Active} (h : extractLeast active = some (x, rest)) :
    ∀ z ∈ rest, extractedBefore x z = true := by
  induction active generalizing x rest with
  | nil => cases h
  | cons y ys ih =>
    simp only [extractLeast] at h
    split at h
    · cases h
      simp
    · rename_i m rest' hm
      have hleast : ∀ z ∈ ys, extractedBefore m z = true := fun z hz => by
        rcases List.mem_cons.mp ((extractLeast_perm hm).mem_iff.mpr hz) with rfl | hz
        · exact extractedBefore_iff.mpr (Or.inr ⟨rfl, le_rfl⟩)
        · exact ih hm z hz
      split at h
      · rename_i hym
        cases h
        intro z hz
        have hmz := hleast z hz
        rw [extractedBefore_iff] at hym hmz ⊢
        omega
      · rename_i hym
        cases h
        refine List.forall_mem_cons.mpr ⟨?_, ih hm⟩
        rw [extractedBefore_iff] at hym ⊢
        omega

/-- One turn of the merging loop: at most one node is active and none is made, or the two that come first are merged. -/
theorem mergeLoop_succ_cases (fuel : Nat) (nodes : List Node) (active : List Active) :
    (active.length ≤ 1 ∧ mergeLoop (fuel + 1) nodes active = nodes)
      ∨ ∃ x y rest, (x :: y :: rest).Perm active
          ∧ (∀ z ∈ y :: rest, extractedBefore x z = true) ∧ (∀ z ∈ rest, extractedBefore y z = true)
          ∧ mergeLoop (fuel + 1) nodes active
            = mergeLoop fuel (mergedNodes nodes x y) (rest ++ [(x.1 + y.1, nodes.length)]) := by
  simp only [mergeLoop]
  cases ha : extractLeast active with
  | none => exact Or.inl ⟨by simp [extractLeast_none ha], rfl⟩
  | some xr =>
    obtain ⟨x, active1⟩ := xr
    have hp1 := extractLeast_perm ha
    have hx := extractLeast_before ha
    dsimp only
    cases hb : extractLeast active1 with
    | none =>
      rw [extractLeast_none hb] at hp1
      exact Or.inl ⟨hp1.length_eq.ge, rfl⟩
    | some yr =>
      obtain ⟨y, rest⟩ := yr
      have hp2 := extractLeast_perm hb
      exact Or.inr ⟨x, y, rest, (hp2.cons x).trans hp1, fun z hz => hx z (hp2.mem_iff.mp hz),
        extractLeast_before hb, rfl⟩

/-! ### Every merge takes the two least -/

/-- Entry n merges the two active entries that come first, the first as the left child (42_huffman.md R200, R201). -/
def LeastMerge (t : Arena) (k n : Nat) : Prop :=
  ∃ l r w, t.nodeAt n = .internal l r w
    ∧ activeAt t k n l.toNat
    ∧ activeAt t k n r.toNat
    ∧ l ≠ r
    ∧ w.toNat = weight t l.toNat + weight t r.toNat
    ∧ (∀ j, activeAt t k n j → notAfter t l.toNat j)
    ∧ (∀ j, activeAt t k n j → j ≠ l.toNat → notAfter t r.toNat j)

/-- The arena begins with the given nodes. -/
def BeginsWith (t : Arena) (nodes : List Node) : Prop := ∀ i, i < nodes.length → t.nodeAt i = entry nodes i

theorem BeginsWith.of_append {t : Arena} {nodes : List Node} {x : Node} (h : BeginsWith t (nodes ++ [x])) :
    BeginsWith t nodes := fun i hi =>
  (h i (by simp; omega)).trans (entry_append_of_lt hi x)

theorem isChild_iff {t : Arena} {m j : Nat} : isChild t m j ↔ ∃ b, Child t.nodeAt m b j := by
  simp only [isChild, Child, Bool.exists_bool, Bool.false_eq_true, if_false, if_true]
  constructor
  · rintro ⟨l, r, w, hm, hl | hr⟩
    · exact Or.inl ⟨l, r, w, hm, hl⟩
    · exact Or.inr ⟨l, r, w, hm, hr⟩
  · rintro (⟨l, r, w, hm, hl⟩ | ⟨l, r, w, hm, hr⟩)
    · exact ⟨l, r, w, hm, Or.inl hl⟩
    · exact ⟨l, r, w, hm, Or.inr hr⟩

section
variable {present : List (Byte × Word)} {nodes : List Node} {active rest : List Active} {x y : Active} {t : Arena}

/-- The entries active in the sense of the statement are those in the loop's list. -/
theorem Forest.activeAt_iff (h : Forest present nodes active) (ht : BeginsWith t nodes) {j : Nat} :
    activeAt t present.length nodes.length j ↔ ∃ z ∈ active, z.2 = j := by
  have hchild : ∀ {m b}, m < nodes.length → (Child t.nodeAt m b j ↔ Child (entry nodes) m b j) := fun hm => by
    rw [Child, Child, ht _ hm]
  constructor
  · rintro ⟨hj, hno⟩
    refine List.mem_map.mp ((h.active_iff j hj).mpr ?_)
    rintro ⟨m, b, hc⟩
    obtain ⟨hk, hm, _⟩ := h.child_bounds hc
    exact hno m hk hm (isChild_iff.mpr ⟨b, (hchild hm).mpr hc⟩)
  · rintro ⟨z, hz, rfl⟩
    refine ⟨h.exists_of_active z hz, fun m _ hm hc => ?_⟩
    obtain ⟨b, hc⟩ := isChild_iff.mp hc
    exact h.not_child_of_active hz ((hchild hm).mp hc)

theorem Forest.weight_active (h : Forest present nodes active) (ht : BeginsWith t nodes) {z : Active}
    (hz : z ∈ active) : weight t z.2 = z.1 := by
  rw [weight_eq, ht _ (h.exists_of_active z hz)]
  exact h.weights z hz

/-- The loop's order of the active nodes is that of the statement. -/
theorem Forest.notAfter_of_before (h : Forest present nodes active) (ht : BeginsWith t nodes) {z z' : Active}
    (hz : z ∈ active) (hz' : z' ∈ active) (hb : extractedBefore z z' = true) : notAfter t z.2 z'.2 := by
  rw [notAfter, h.weight_active ht hz, h.weight_active ht hz']
  exact extractedBefore_iff.mp hb

/-- The node made of the two active nodes that come first merges the two least. -/
theorem Forest.leastMerge (h : Forest present nodes (x :: y :: rest)) (hk : present.length ≤ 256)
    (hsum : (present.map (fun x => x.2.toNat)).sum < 2 ^ 32)
    (hx : ∀ z ∈ y :: rest, extractedBefore x z = true) (hy : ∀ z ∈ rest, extractedBefore y z = true)
    (ht : BeginsWith t (mergedNodes nodes x y)) : LeastMerge t present.length nodes.length := by
  have hold : BeginsWith t nodes := ht.of_append
  have hnode := (ht nodes.length (by simp [mergedNodes])).trans (entry_append_length _ _)
  have hweight := (h.merge hk hsum).weights (x.1 + y.1, nodes.length) (by simp)
  rw [mergedNodes, entry_append_length] at hweight
  have hxm : x ∈ x :: y :: rest := by simp
  have hym : y ∈ x :: y :: rest := by simp
  have hx9 := h.index_fits hk hxm
  have hy9 := h.index_fits hk hym
  refine ⟨_, _, _, hnode, ?_, ?_, fun heq => ?_, ?_, fun j hj => ?_, fun j hj hne => ?_⟩
  · exact (h.activeAt_iff hold).mpr ⟨x, hxm, hx9.symm⟩
  · exact (h.activeAt_iff hold).mpr ⟨y, hym, hy9.symm⟩
  · have hxy : x.2 = y.2 := by rw [← hx9, ← hy9, heq]
    exact (List.nodup_cons.mp h.nodup).1 (by simp [hxy])
  · rw [hx9, hy9, h.weight_active hold hxm, h.weight_active hold hym]
    exact hweight
  · obtain ⟨z, hz, rfl⟩ := (h.activeAt_iff hold).mp hj
    rw [hx9]
    rcases List.mem_cons.mp hz with rfl | hz'
    · exact Or.inr ⟨rfl, le_rfl⟩
    · exact h.notAfter_of_before hold hxm hz (hx z hz')
  · obtain ⟨z, hz, rfl⟩ := (h.activeAt_iff hold).mp hj
    rw [hx9] at hne
    rw [hy9]
    rcases List.mem_cons.mp hz with rfl | hz'
    · exact absurd rfl hne
    · rcases List.mem_cons.mp hz' with rfl | hz''
      · exact Or.inr ⟨rfl, le_rfl⟩
      · exact h.notAfter_of_before hold hym hz (hy z hz'')

/-- In an arena that begins with the given nodes, every node past the leaves merges the two least. -/
def LeastMerges (k : Nat) (nodes : List Node) : Prop :=
  ∀ t, BeginsWith t nodes → ∀ n, k ≤ n → n < nodes.length → LeastMerge t k n

/-- The merging loop makes nodes that merge the two least. -/
theorem Forest.leastMerges_mergeLoop (hk : present.length ≤ 256)
    (hsum : (present.map (fun x => x.2.toNat)).sum < 2 ^ 32) (fuel : Nat) (h : Forest present nodes active)
    (hm : LeastMerges present.length nodes) : LeastMerges present.length (mergeLoop fuel nodes active) := by
  induction fuel generalizing nodes active with
  | zero => exact hm
  | succ fuel ih =>
    rcases mergeLoop_succ_cases fuel nodes active with ⟨_, heq⟩ | ⟨x, y, rest, hp, hx, hy, heq⟩ <;> rw [heq]
    · exact hm
    · have hf := h.perm hp
      refine ih (hf.merge hk hsum) fun t ht n hn hlt => ?_
      rcases Nat.lt_succ_iff_lt_or_eq.mp (List.length_append ▸ hlt) with hlt | rfl
      · exact hm t ht.of_append n hn hlt
      · exact hf.leastMerge hk hsum hx hy ht

end

/-! ### The tree of FREQ -/

/-- A present symbol stands with its count. -/
theorem snd_of_mem_presentSymbols {freq : Table Word 256} {x : Byte × Word} (h : x ∈ presentSymbols freq) :
    x.2 = BitVec.ofNat 32 (count freq x.1) := by
  obtain ⟨b, _, rfl⟩ := List.mem_map.mp (List.mem_filter.mp h).1
  rw [count, BitVec.ofNat_toNat, BitVec.setWidth_eq]

theorem buildArena_leaf {freq : Table Word 256} (hsum : freqSum freq < 2 ^ 32) {j : Nat}
    (h : j < (present freq).length) :
    (buildArena freq).nodeAt j = .leaf (present freq)[j] (BitVec.ofNat 32 (count freq (present freq)[j])) := by
  obtain ⟨active, _, hf⟩ := forest_treeNodes hsum
  have hj : j < (presentSymbols freq).length := present_length_eq freq ▸ h
  have hsym : (present freq)[j] = (presentSymbols freq)[j].1 := by
    rw [List.getElem_of_eq (presentSymbols_map_fst freq).symm h, List.getElem_map]
  rw [buildArena_nodeAt, hf.leaves j hj, hsym, snd_of_mem_presentSymbols (List.getElem_mem hj)]

/-- The arena BUILD_TREE makes merges the two least entries at every node past the leaves. -/
theorem buildArena_leastMerge {freq : Table Word 256} (hsum : freqSum freq < 2 ^ 32) {n : Nat}
    (hn : (present freq).length ≤ n) (hlt : n < (buildArena freq).count.toNat) :
    LeastMerge (buildArena freq) (present freq).length n := by
  have hsum' : ((presentSymbols freq).map (fun x => x.2.toNat)).sum < 2 ^ 32 := by rwa [presentSymbols_sum]
  rw [buildArena_count] at hlt
  rw [present_length_eq] at hn ⊢
  refine (forest_leaves (presentSymbols freq)).leastMerges_mergeLoop (presentSymbols_length_le freq) hsum' _ ?_ _
    (fun i _ => congrFun (buildArena_nodeAt freq) i) n hn hlt
  intro t _ m hm hlt
  rw [leafNodes, List.length_map] at hlt
  omega

theorem treeOf_buildArena {freq : Table Word 256} (hsum : freqSum freq < 2 ^ 32) : TreeOf freq (buildArena freq) := by
  have ht := strictTree_buildArena hsum
  have hcount := ht.count_eq
  exact
    { count_eq := hcount
      root_none := fun h0 => if_pos (by rw [← buildArena_count, hcount, h0])
      root_last := fun hpos => ht.root_eq fun h0 => by
        simp [h0] at hcount
        omega
      leaves := fun _ h => buildArena_leaf hsum h
      merges := fun _ hn hlt => buildArena_leastMerge hsum hn hlt
      unused := fun j hj => by
        rw [buildArena_nodeAt]
        exact entry_past (buildArena_count freq ▸ hj) }

/-- Settles O42: BUILD_TREE passes the checks and commits `buildArena`, which is the tree of FREQ
(`treeOf_buildArena`). -/
theorem buildTreeMergesTheLeastPairs : Obligations.BuildTreeMergesTheLeastPairs := fun s hsum =>
  ⟨buildArena s.freq, exec_commit (i := .buildTree) (earlyError_free s.operands s) rfl,
    treeOf_buildArena (Nat.lt_succ_of_le hsum)⟩

/-! ### The properties of a built tree -/

/-- Settles O43: the arena is the tree of FREQ (`treeOf_buildArena`), a strict tree whose root weighs TOTAL
(`tablesMatchTheCounts`), and a path passes internal nodes only, which are one fewer than the leaves
(`StrictTree.follow_length_le`). -/
theorem builtTreeIsStrictAndComplete : Obligations.BuiltTreeIsStrictAndComplete := by
  intro s h hv hk
  obtain ⟨_, hdistinct, htree, _, _⟩ := tablesMatchTheCounts s h
  obtain ⟨hcount, _, hbelow, hpath, hroot⟩ := htree hv
  have hpos : 0 < (present s.freq).length := by
    rw [← hdistinct, Nat.pos_iff_ne_zero]
    exact fun h0 => hk (BitVec.eq_of_toNat_eq h0)
  have hst := strictTree_of_inv h hv
  have ht : TreeOf s.freq s.arena := by
    rw [h.treeBuilt hv]
    exact treeOf_buildArena (total_eq_freqSum h ▸ s.total.isLt)
  rw [hdistinct]
  refine ⟨hcount, fun n l r w hn => ?_, hroot hpos, hpath, fun p n sym w hp _ => ?_⟩
  · obtain ⟨hl, hr, _⟩ := hbelow n l r w hn
    obtain ⟨hge, hlt, _⟩ := hst.child_bounds (child_of_internal hn).1
    obtain ⟨l', r', w', hn', _, _, _, hw, _⟩ := ht.merges n hge hlt
    obtain ⟨rfl, rfl, rfl⟩ := Node.internal.inj (hn.symm.trans hn')
    exact ⟨hl, hr, hw⟩
  · have hlen := hst.follow_length_le hp
    have hlast := ht.root_last hpos
    omega

end Sys2Proof.Proofs
end

section
/-! BUILD_CODES (spec/42_huffman.md R204, R205): each symbol is assigned one code, the path to its leaf, so the table
holds what was assigned. -/

namespace Sys2Proof.Proofs

open Sys2Proof Sys2Proof.Machine Sys2Proof.Laws Sys2Proof.Claims

theorem present_nodup (freq : Table Word 256) : (present freq).Nodup := symbols_nodup.filter _

/-- A table read inside its bounds does not ask for the default. -/
theorem table_get_default {α : Type} {n i : Nat} (t : Table α n) (d e : α) (h : i < n) : t.get i d = t.get i e := by
  have hl : i < t.entries.length := h.trans_eq t.size_eq.symm
  rw [Table.get, Table.get, List.getD_eq_getElem _ _ hl, List.getD_eq_getElem _ _ hl]

section
variable {freq : Table Word 256} {t : Arena}

/-- A symbol is assigned one code: it has one leaf, and the leaf one path. -/
theorem StrictTree.assignedCodes_unique (h : StrictTree freq t) {b : Byte} {c c' : Bits}
    (hc : (b, c) ∈ assignedCodes t) (hc' : (b, c') ∈ assignedCodes t) : c = c' := by
  match hp : present freq with
  | [] =>
    obtain ⟨hsound, _, _⟩ := h.codes
    have hb := mem_present_iff.mpr (hsound b c hc).1
    rw [hp] at hb
    cases hb
  | [sym] =>
    rw [h.assignedCodes_single hp, List.mem_singleton] at hc hc'
    exact congrArg Prod.snd (hc.trans hc'.symm)
  | x :: y :: rest =>
    have hk : 2 ≤ (present freq).length := by simp [hp]
    have hcount := h.count_eq
    have hroot := h.root_eq fun h0 => by simp [h0] at hcount; omega
    obtain ⟨n, w, hn, hl⟩ := (h.mem_assignedCodes hk).mp hc
    obtain ⟨n', w', hn', hl'⟩ := (h.mem_assignedCodes hk).mp hc'
    have hle := h.follow_le hn
    have hle' := h.follow_le hn'
    obtain ⟨hlt, hsym⟩ := h.leaf_present (by omega) hl
    obtain ⟨hlt', hsym'⟩ := h.leaf_present (by omega) hl'
    obtain rfl := (present_nodup freq).getElem_inj_iff.mp (hsym.symm.trans hsym')
    exact h.follow_inj hn hn'

/-- The table holds the code that was assigned. -/
theorem StrictTree.codeTable_of_assigned (h : StrictTree freq t) {b : Byte} {c : Bits}
    (hc : (b, c) ∈ assignedCodes t) : (buildCodeTable t).get b.toNat [] = c := by
  rcases buildCodeTable_get t b with ⟨hno, _⟩ | hmem
  · exact absurd hc (hno c)
  · exact h.assignedCodes_unique hmem hc

end

/-- Settles O44: the check of step 4 is the only one BUILD_CODES has; it commits `buildCodeTable`, in which a symbol
that is not present has the empty code (`StrictTree.codeTable`) and any other the one assigned
(`StrictTree.codeTable_of_assigned`). -/
theorem buildCodesTakesThePaths : Obligations.BuildCodesTakesThePaths := by
  intro s
  have hearly : earlyCode .buildCodes s = if s.model.treeValid = false then some 5 else none := by
    simp [earlyCode, overLimit, badRange, bitMissing, readsSource, writesDest]
  refine ⟨fun hv => exec_earlyCode (hearly.trans (if_pos hv)), fun h hv => ?_⟩
  have ht := strictTree_of_inv h hv
  have hcount := ht.count_eq
  refine ⟨buildCodeTable s.arena, exec_of_bodyOf (hearly.trans (if_neg (by simp [hv]))) rfl,
    fun b hb => ?_, fun sym w h1 hl => ?_, fun p n sym w h2 hp hl => ?_⟩
  · rw [table_get_default _ _ [] b.isLt]
    by_contra hne
    exact absurd hb ((ht.codeTable.1 b).mp hne).ne'
  · obtain ⟨x, hx⟩ := List.length_eq_one_iff.mp (by omega : (present s.freq).length = 1)
    obtain ⟨_, hsym⟩ := ht.leaf_present (by omega) hl
    have hsx : sym = x := by simpa [hx] using hsym
    exact ht.codeTable_of_assigned (by rw [ht.assignedCodes_single hx, hsx]; exact List.mem_singleton_self _)
  · exact ht.codeTable_of_assigned ((ht.mem_assignedCodes (by omega)).mpr ⟨n, w, hp, hl⟩)

/-- Settles O45, as a clause of `tablesMatchTheCounts`. -/
theorem codesArePrefixFree : Obligations.CodesArePrefixFree := by
  intro s h hv
  obtain ⟨_, _, _, hcodes, _⟩ := tablesMatchTheCounts s h
  exact hcodes hv

end Sys2Proof.Proofs
end

section
/-! HUFF_ENC (spec/42_huffman.md R206): the codes of the body's bytes one after another, packed. -/

namespace Sys2Proof.Proofs

open Sys2Proof Sys2Proof.Machine Sys2Proof.Laws Sys2Proof.Claims

/-! ### A packed store -/

theorem storePacked_of_overflow {p : Operands} {bits : Bits}
    (h : 0xFFFFFFFF < bits.length ∨ p.dstCap.toNat < ceil8 bits.length) (s : State) :
    storePacked p bits s = .late .dstOverflow := by
  rcases storePacked_cases p bits s with ⟨h1, h2, _⟩ | ⟨_, heq⟩
  · omega
  · exact heq

theorem storePacked_of_fits {p : Operands} {bits : Bits} (h1 : bits.length ≤ 0xFFFFFFFF)
    (h2 : ceil8 bits.length ≤ p.dstCap.toNat) (s : State) :
    storePacked p bits s = .commit { s.writeBytes p.dstAddr.toNat (packBits bits) with
      bitLen := BitVec.ofNat 32 bits.length
      outLen := BitVec.ofNat 32 (ceil8 bits.length) } := by
  rcases storePacked_cases p bits s with ⟨_, _, heq⟩ | ⟨h, _⟩
  · exact heq
  · omega

/-- A packed store that commits leaves the bits from DST_ADDR on, padded with zeros, and no other byte changed. -/
theorem holdsPacked_of_storePacked {p : Operands} {bits : Bits} {s t : State} (h : storePacked p bits s = .commit t) :
    holdsPacked t p.dstAddr.toNat bits ∧ sameOutside s t p.dstAddr.toNat (ceil8 bits.length) := by
  obtain ⟨_, _, rfl⟩ := storePacked_commit h
  refine ⟨fun i hi => bitAt_writePacked s _ i bits hi, fun x hx => ?_⟩
  exact readByte_writeBytes_outside s _ x _ (by rwa [packBits_length])

/-! ### The codes of a body -/

/-- A byte with no code has no bits. -/
theorem huffEncode_none {code : Table Bits 256} {body : List Byte} (h : ∃ b ∈ body, code.get b.toNat [] = []) :
    huffEncode code body = none := by
  induction body with
  | nil => simp at h
  | cons b rest ih =>
    rw [huffEncode]
    split
    · rfl
    · rename_i hb
      obtain ⟨c, hc, hnone⟩ := h
      rcases List.mem_cons.mp hc with rfl | hc
      · exact absurd (congrArg List.length hnone) hb
      · rw [ih ⟨c, hc, hnone⟩, Option.map_none]

/-- The bits of a body are the codes of its bytes one after another. -/
theorem huffEncode_some {code : Table Bits 256} {body : List Byte} (h : ∀ b ∈ body, code.get b.toNat [] ≠ []) :
    huffEncode code body = some (body.flatMap (fun b => code.get b.toNat [])) := by
  induction body with
  | nil => rfl
  | cons b rest ih =>
    obtain ⟨hb, hrest⟩ := List.forall_mem_cons.mp h
    rw [huffEncode, if_neg (mt List.length_eq_zero_iff.mp hb), ih hrest, Option.map_some, List.flatMap_cons]

theorem huffEncBody_of_none {p : Operands} {s : State} (h : huffEncode s.code (s.source p) = none) :
    huffEncBody p s = .late .modelMismatch := by
  rw [huffEncBody, h]

theorem huffEncBody_of_some {p : Operands} {s : State} {bits : Bits} (h : huffEncode s.code (s.source p) = some bits) :
    huffEncBody p s = storePacked p bits { s with symCount := p.srcLen } := by
  rw [huffEncBody, h]

/-- A run of HUFF_ENC that commits stored the bits of the body packed. -/
theorem huffEncBody_commit {p : Operands} {s t : State} (h : huffEncBody p s = .commit t) :
    ∃ bits, huffEncode s.code (s.source p) = some bits
      ∧ storePacked p bits { s with symCount := p.srcLen } = .commit t := by
  cases hbits : huffEncode s.code (s.source p) with
  | none =>
    rw [huffEncBody_of_none hbits] at h
    cases h
  | some bits => exact ⟨bits, rfl, (huffEncBody_of_some hbits).symm.trans h⟩

/-- Settles O47: past steps 2 to 4 a byte with no code is MODEL_MISMATCH (`huffEncode_none`), and otherwise the codes of
the body's bytes (`huffEncode_some`) are stored packed. -/
theorem huffEncConcatenatesTheCodes : Obligations.HuffEncConcatenatesTheCodes := by
  intro s
  have hbody : (∀ b ∈ body s, s.codeAt b ≠ []) → huffEncBody s.operands s
      = storePacked s.operands ((body s).flatMap s.codeAt) { s with symCount := s.operands.srcLen } :=
    fun hcodes => huffEncBody_of_some (huffEncode_some hcodes)
  refine ⟨fun c hc => exec_earlyCode hc, fun h hmiss => ?_, fun h hcodes hover => ?_, fun h hcodes hlen hcap => ?_⟩
  · exact ⟨_, exec_of_bodyOf h (huffEncBody_of_none (huffEncode_none hmiss)), failedLate_raiseLate s .modelMismatch⟩
  · have hstore := (hbody hcodes).trans (storePacked_of_overflow hover _)
    exact ⟨_, exec_of_bodyOf h hstore, failedLate_raiseLate s .dstOverflow⟩
  · have hstore := storePacked_of_fits hlen hcap { s with symCount := s.operands.srcLen }
    obtain ⟨hheld, hout⟩ := holdsPacked_of_storePacked hstore
    exact ⟨_, exec_of_bodyOf h ((hbody hcodes).trans hstore), rfl, hheld, hout⟩

end Sys2Proof.Proofs
end

section
/-! HUFF_DEC (spec/42_huffman.md R208) and the round trip (R210): a path from ROOT to a leaf decodes to the leaf's
symbol, so the codes of a body decode to the body. -/

namespace Sys2Proof.Proofs

open Sys2Proof Sys2Proof.Machine Sys2Proof.Laws Sys2Proof.Claims

/-! ### The walk along a path -/

theorem child_eq_of_child {t : Arena} {i j : Nat} {b : Bool} (h : Child t.nodeAt i b j) : t.child i b = j := by
  obtain ⟨l, r, w, hi, hj⟩ := h
  rw [Arena.child, hi, ← hj]
  cases b <;> rfl

/-- A bit that leads to a leaf emits its symbol, and the walk goes on from ROOT. -/
theorem huffDecodeWalk_cons_leaf {t : Arena} {i j : Nat} {b : Bool} {sym : Byte} {w : Word} (h : Child t.nodeAt i b j)
    (hj : t.nodeAt j = .leaf sym w) (bits : Bits) :
    huffDecodeWalk t i (b :: bits) = (huffDecodeWalk t t.root.toNat bits).map (fun out => sym :: out) := by
  rw [huffDecodeWalk, child_eq_of_child h, hj]

/-- A bit that leads to a node that is no leaf only moves the walk on. -/
theorem huffDecodeWalk_cons_inner {t : Arena} {i j : Nat} {b : Bool} (h : Child t.nodeAt i b j)
    (hj : ∀ sym w, t.nodeAt j ≠ .leaf sym w) (bits : Bits) :
    huffDecodeWalk t i (b :: bits) = huffDecodeWalk t j bits := by
  rw [huffDecodeWalk, child_eq_of_child h]
  cases hn : t.nodeAt j with
  | leaf sym w => exact absurd hn (hj sym w)
  | internal l r w => rfl
  | unused => rfl

/-- A path to a node that is no leaf meets no leaf, so the walk follows it without emitting anything. -/
theorem huffDecodeWalk_follow {t : Arena} {i n : Nat} {p : Bits} (hp : follow t i p = some n)
    (hn : ∀ sym w, t.nodeAt n ≠ .leaf sym w) (bits : Bits) :
    huffDecodeWalk t i (p ++ bits) = huffDecodeWalk t n bits := by
  induction p generalizing i with
  | nil =>
    obtain rfl : i = n := Option.some.inj hp
    rfl
  | cons b p ih =>
    obtain ⟨j, hc, hj⟩ := follow_cons_iff.mp hp
    have hinner : ∀ sym w, t.nodeAt j ≠ .leaf sym w := fun sym w hl => by
      obtain rfl := follow_of_leaf hl hj
      obtain rfl : j = n := Option.some.inj hj
      exact hn sym w hl
    rw [List.cons_append, huffDecodeWalk_cons_inner hc hinner, ih hj]

/-- A path to a leaf emits its symbol, and the walk goes on from ROOT. -/
theorem huffDecodeWalk_path {t : Arena} {i n : Nat} {p : Bits} {sym : Byte} {w : Word} (hp : follow t i p = some n)
    (hne : p ≠ []) (hn : t.nodeAt n = .leaf sym w) (bits : Bits) :
    huffDecodeWalk t i (p ++ bits) = (huffDecodeWalk t t.root.toNat bits).map (fun out => sym :: out) := by
  obtain ⟨p, b, rfl⟩ := (List.eq_nil_or_concat' p).resolve_left hne
  obtain ⟨m, hm, hc⟩ := follow_snoc_iff.mp hp
  have hinner : ∀ sym w, t.nodeAt m ≠ .leaf sym w := fun sym w hl => by
    obtain ⟨l, r, w', hi, _⟩ := hc
    rw [hi] at hl
    cases hl
  rw [List.append_assoc, huffDecodeWalk_follow hm hinner, List.singleton_append, huffDecodeWalk_cons_leaf hc hn]

/-- Spelled paths emit their symbols, and the walk goes on from ROOT. -/
theorem huffDecodeWalk_spells {t : Arena} {out : List Byte} {bits : Bits} (h : Spells t out bits) (rest : Bits) :
    huffDecodeWalk t t.root.toNat (bits ++ rest) = (huffDecodeWalk t t.root.toNat rest).map (out ++ ·) := by
  induction h with
  | nil => simp
  | cons sym w i p out bits hne hp hl _ ih =>
    rw [List.append_assoc, huffDecodeWalk_path hp hne hl, ih, Option.map_map]
    rfl

theorem huffDecodeWalk_root_nil (t : Arena) : huffDecodeWalk t t.root.toNat [] = some [] := if_pos rfl

/-! ### Decoding by the size of the tree -/

section
variable {t : Arena} {bits : Bits}

theorem huffDecode_empty (h : t.count = 0) : huffDecode t bits = if bits.length = 0 then some [] else none :=
  if_pos h

theorem huffDecode_single (h : t.count = 1) : huffDecode t bits = huffDecodeSingle (t.nodeAt 0).symbol bits := by
  rw [huffDecode, if_neg (by rw [h]; decide), if_pos h]

theorem huffDecode_walk (h0 : t.count ≠ 0) (h1 : t.count ≠ 1) :
    huffDecode t bits = huffDecodeWalk t t.root.toNat bits := by
  rw [huffDecode, if_neg h0, if_neg h1]

theorem huffDecode_of_two_le (h : 2 ≤ t.count.toNat) : huffDecode t bits = huffDecodeWalk t t.root.toNat bits :=
  huffDecode_walk (fun h0 => by simp [h0] at h) (fun h1 => by simp [h1] at h)

/-- With a single leaf a 1 bit is a mismatch. -/
theorem huffDecodeSingle_of_mem {sym : Byte} (h : true ∈ bits) : huffDecodeSingle sym bits = none := by
  induction bits with
  | nil => cases h
  | cons b rest ih =>
    cases b with
    | true => rfl
    | false => rw [huffDecodeSingle, ih (by simpa using h)]; rfl

/-- With a single leaf every 0 bit is its symbol. -/
theorem huffDecodeSingle_of_notMem {sym : Byte} (h : true ∉ bits) :
    huffDecodeSingle sym bits = some (List.replicate bits.length sym) := by
  induction bits with
  | nil => rfl
  | cons b rest ih =>
    cases b with
    | true => simp at h
    | false => rw [huffDecodeSingle, ih (by simpa using h)]; rfl

/-- Bits that spell symbols decode to them. -/
theorem huffDecode_spells (h : 2 ≤ t.count.toNat) {out : List Byte} (hs : Spells t out bits) :
    huffDecode t bits = some out := by
  have hwalk := huffDecodeWalk_spells hs []
  rw [List.append_nil, huffDecodeWalk_root_nil, Option.map_some, List.append_nil] at hwalk
  exact (huffDecode_of_two_le h).trans hwalk

/-- Bits that end inside a path are a mismatch. -/
theorem huffDecode_ends_inside (h : 2 ≤ t.count.toNat) {out : List Byte} (hs : Spells t out bits) {rest : Bits}
    {n : Nat} {l r : BitVec 9} {w : Word} (hrest : follow t t.root.toNat rest = some n) (hn : n ≠ t.root.toNat)
    (hi : t.nodeAt n = .internal l r w) : huffDecode t (bits ++ rest) = none := by
  have hinner : ∀ sym w, t.nodeAt n ≠ .leaf sym w := fun sym w hl => by
    rw [hi] at hl
    cases hl
  have hwalk : huffDecodeWalk t t.root.toNat rest = none := by
    rw [← List.append_nil rest, huffDecodeWalk_follow hrest hinner]
    exact if_neg hn
  rw [huffDecode_of_two_le h, huffDecodeWalk_spells hs, hwalk, Option.map_none]

end

/-! ### Steps 5 to 8 -/

section
variable {p : Operands} {s : State}

theorem huffDecBody_of_short (h : p.srcLen.toNat < ceil8 p.bitLen.toNat) : huffDecBody p s = .early .invalidInput :=
  if_pos (decide_eq_true h)

theorem huffDecBody_of_none (hlen : ceil8 p.bitLen.toNat ≤ p.srcLen.toNat)
    (h : huffDecode s.arena (s.sourceBits p) = none) : huffDecBody p s = .late .modelMismatch := by
  rw [huffDecBody, sourceTooShort, decide_eq_false (Nat.not_lt.mpr hlen), if_neg Bool.false_ne_true, h]

theorem huffDecBody_of_some (hlen : ceil8 p.bitLen.toNat ≤ p.srcLen.toNat) {out : List Byte}
    (h : huffDecode s.arena (s.sourceBits p) = some out) :
    huffDecBody p s = storeOutput p out { s with symCount := BitVec.ofNat 32 out.length } := by
  rw [huffDecBody, sourceTooShort, decide_eq_false (Nat.not_lt.mpr hlen), if_neg Bool.false_ne_true, h]

end

section
variable {s : State}

/-- HUFF_DEC of bits that spell no string of symbols. -/
theorem exec_huffDec_mismatch (hearly : earlyCode .huffDec s = none)
    (hlen : ceil8 s.operands.bitLen.toNat ≤ s.operands.srcLen.toNat)
    (h : huffDecode s.arena (s.sourceBits s.operands) = none) :
    ∃ t, exec .huffDec s = .next t ∧ failedLate 2 s t :=
  ⟨_, exec_of_bodyOf hearly (huffDecBody_of_none hlen h), failedLate_raiseLate s .modelMismatch⟩

/-- HUFF_DEC of more symbols than the destination range holds. -/
theorem exec_huffDec_overflow (hearly : earlyCode .huffDec s = none)
    (hlen : ceil8 s.operands.bitLen.toNat ≤ s.operands.srcLen.toNat) {out : List Byte}
    (h : huffDecode s.arena (s.sourceBits s.operands) = some out) (hcap : s.operands.dstCap.toNat < out.length) :
    ∃ t, exec .huffDec s = .next t ∧ failedLate 7 s t :=
  ⟨_, exec_of_bodyOf hearly ((huffDecBody_of_some hlen h).trans (storeOutput_of_overflow hcap _)),
    failedLate_raiseLate s .dstOverflow⟩

/-- HUFF_DEC of symbols that fit the destination range. -/
theorem exec_huffDec_fits (hearly : earlyCode .huffDec s = none)
    (hlen : ceil8 s.operands.bitLen.toNat ≤ s.operands.srcLen.toNat) {out : List Byte}
    (h : huffDecode s.arena (s.sourceBits s.operands) = some out) (hcap : out.length ≤ s.operands.dstCap.toNat) :
    ∃ t, exec .huffDec s = .next t
      ∧ doneWith s t (BitVec.ofNat 32 out.length) s.bitLen (BitVec.ofNat 32 out.length)
      ∧ holds t s.operands.dstAddr.toNat out
      ∧ sameOutside s t s.operands.dstAddr.toNat out.length := by
  have hstore := storeOutput_of_fits hcap { s with symCount := BitVec.ofNat 32 out.length }
  have hheld := holds_of_storeOutput hstore
  exact ⟨_, exec_of_bodyOf hearly ((huffDecBody_of_some hlen h).trans hstore), rfl, hheld,
    fun x hx => readByte_writeBytes_outside s _ x out hx⟩

end

/-- Settles O48: each clause says what `huffDecode` gives, by the size of the tree, and how the command then ends
(`exec_huffDec_mismatch`, `exec_huffDec_overflow`, `exec_huffDec_fits`). -/
theorem huffDecFollowsTheTree : Obligations.HuffDecFollowsTheTree := by
  intro s
  have hbits : s.sourceBits s.operands = stream s s.operands.srcAddr.toNat s.operands.bitLen.toNat := rfl
  have hsize : (s.sourceBits s.operands).length = s.operands.bitLen.toNat := unpackBits_length ..
  have hword : BitVec.ofNat 32 s.operands.bitLen.toNat = s.operands.bitLen := by
    rw [BitVec.ofNat_toNat, BitVec.setWidth_eq]
  refine ⟨fun c hc => exec_earlyCode hc, fun h hshort => exec_of_bodyOf h (huffDecBody_of_short hshort),
    fun h hlen => ?_⟩
  rw [← hbits]
  have hzeros : s.arena.count = 1 → true ∉ s.sourceBits s.operands →
      huffDecode s.arena (s.sourceBits s.operands)
        = some (List.replicate s.operands.bitLen.toNat (s.arena.nodeAt 0).symbol) := fun hone h0 => by
    rw [huffDecode_single hone, huffDecodeSingle_of_notMem h0, hsize]
  refine ⟨fun h0 hpos => ?_, fun h0 hnil => ?_, fun h1 hone => ?_, fun sym w h1 hl hzero hcap => ?_,
    fun h1 hzero hcap => ?_, fun out bits rest n l r w h2 hs _ hrest hn hi heq => ?_, fun out h2 hs hcap => ?_,
    fun out h2 hs hcap => ?_⟩
  · refine exec_huffDec_mismatch h hlen ?_
    rw [huffDecode_empty h0, hsize, if_neg hpos.ne']
  · have hdec : huffDecode s.arena (s.sourceBits s.operands) = some [] := by
      rw [huffDecode_empty h0, hsize, if_pos hnil]
    obtain ⟨t, hexec, hdone, _, hout⟩ := exec_huffDec_fits h hlen hdec (Nat.zero_le _)
    exact ⟨t, hexec, hdone, fun a => hout a fun hin => absurd hin.2 (Nat.not_lt.mpr hin.1)⟩
  · refine exec_huffDec_mismatch h hlen ?_
    rw [huffDecode_single h1, huffDecodeSingle_of_mem hone]
  · have hfits := exec_huffDec_fits h hlen (hzeros h1 hzero)
    rw [List.length_replicate, hword, hl] at hfits
    exact hfits hcap
  · exact exec_huffDec_overflow h hlen (hzeros h1 hzero) (by rwa [List.length_replicate])
  · exact exec_huffDec_mismatch h hlen (heq ▸ huffDecode_ends_inside h2 hs hrest hn hi)
  · exact exec_huffDec_overflow h hlen (huffDecode_spells h2 hs) hcap
  · exact exec_huffDec_fits h hlen (huffDecode_spells h2 hs) hcap

/-! ### The round trip -/

theorem huffDecode_nil (t : Arena) : huffDecode t [] = some [] := by
  unfold huffDecode
  split
  · rfl
  · split
    · rfl
    · exact huffDecodeWalk_root_nil t

/-- An assigned code decodes to its symbol, and the decoding of what follows goes on behind it. -/
theorem huffDecode_code_append {t : Arena} {b : Byte} {c : Bits} (h : (b, c) ∈ assignedCodes t) (hne : c ≠ [])
    (bits : Bits) : huffDecode t (c ++ bits) = (huffDecode t bits).map (fun out => b :: out) := by
  unfold assignedCodes at h
  split at h
  · cases h
  · rename_i h0
    split at h
    · rename_i h1
      rw [huffDecode_single h1, huffDecode_single h1]
      split at h
      · rename_i hl
        obtain ⟨rfl, rfl⟩ := Prod.mk.inj (List.mem_singleton.mp h)
        rw [hl]
        rfl
      · cases h
      · cases h
    · rename_i h1
      obtain ⟨q, n, w, _, rfl, hq, hn⟩ := mem_walkTree.mp h
      rw [huffDecode_walk h0 h1, huffDecode_walk h0 h1]
      exact huffDecodeWalk_path hq hne hn bits

/-- The bits of a body under the codes of a tree decode to the body (42_huffman.md R210). -/
theorem huffDecode_huffEncode {t : Arena} {body : List Byte} {bits : Bits}
    (h : huffEncode (buildCodeTable t) body = some bits) : huffDecode t bits = some body := by
  induction body generalizing bits with
  | nil =>
    obtain rfl : [] = bits := Option.some.inj h
    exact huffDecode_nil t
  | cons b rest ih =>
    rw [huffEncode] at h
    split at h
    · cases h
    · rename_i hb
      obtain ⟨bits', hrest, rfl⟩ := Option.map_eq_some_iff.mp h
      have hne := mt List.length_eq_zero_iff.mpr hb
      have hcode := (buildCodeTable_get t b).resolve_left fun hno => hne hno.2
      rw [huffDecode_code_append hcode hne, ih hrest, Option.map_some]

/-- A command that ends with ERRCODE 0 passed steps 2 to 4. -/
theorem earlyCode_none_of_success {i : Instr} {s t : State} (h : exec i s = .next t) (hc : t.status.errcode = 0) :
    earlyCode i s = none := by
  cases he : earlyError (usesOf i) s.operands s with
  | none => rw [earlyCode_eq, he, Option.map_none]
  | some e =>
    obtain rfl := Host.Outcome.next.inj ((exec_earlyError he).symm.trans h)
    exact absurd hc ((isSome_iff_outcomeCode_ne (some e)).mp rfl)

/-- HUFF_ENC needs CODES_VALID, so a success used the codes of the arena (10_state.md R76). -/
theorem code_eq_of_huffEnc_success {s t : State} (hinv : Inv s) (h : exec .huffEnc s = .next t)
    (hc : t.status.errcode = 0) : s.code = buildCodeTable s.arena := by
  have hearly := earlyError_of_earlyCode_none (earlyCode_none_of_success h hc)
  obtain ⟨_, _, hbuilt⟩ := (earlyError_none_iff ..).mp hearly
  exact (hinv.codesBuilt (by simpa [notBuilt, usesOf, ModelReg.valid] using hbuilt)).2

/-- Settles O49: the stream in `u` is the bits of the body of `s` (`unpackBits_writePacked`), which the tree decodes to
that body (`huffDecode_huffEncode`). -/
theorem huffmanRoundTrip : Obligations.HuffmanRoundTrip := by
  intro s t u hinv henc hc harena hearly hbytes hbitLen hsrc hcap
  have hcode := code_eq_of_huffEnc_success hinv henc hc
  obtain ⟨w, hb, rfl⟩ := exec_success henc hc
  obtain ⟨bits, hbits, hstore⟩ := huffEncBody_commit hb
  obtain ⟨hmax, _, rfl⟩ := storePacked_commit hstore
  have hbl : u.operands.bitLen.toNat = bits.length := by
    rw [hbitLen]
    exact Nat.mod_eq_of_lt (Nat.lt_succ_of_le hmax)
  have hceil : (BitVec.ofNat 32 (ceil8 bits.length)).toNat = ceil8 bits.length := by
    rw [BitVec.toNat_ofNat, ceil8]
    omega
  have hstream : u.sourceBits u.operands = bits := by
    rw [State.sourceBits, hbl]
    refine (unpackBits_congr fun j hj => hbytes j (hceil.symm ▸ hj)).trans ?_
    exact unpackBits_writePacked s s.operands.dstAddr.toNat bits
  have hdec : huffDecode u.arena (u.sourceBits u.operands) = some (body s) := by
    rw [harena, hstream]
    exact huffDecode_huffEncode (hcode ▸ hbits)
  have hlen : (body s).length = s.operands.srcLen.toNat := readBytes_length s _ _
  obtain ⟨v, hexec, hdone, hheld, _⟩ :=
    exec_huffDec_fits hearly (hbl.symm ▸ hceil.symm.trans_le hsrc) hdec (hlen.trans_le hcap)
  rw [hlen, BitVec.ofNat_toNat, BitVec.setWidth_eq] at hdone
  exact ⟨v, hexec, congrArg (fun x => x.status.errcode) hdone, congrArg State.symCount hdone,
    congrArg State.outLen hdone, hheld⟩

end Sys2Proof.Proofs
end

section
/-! The arithmetic coder's Narrow and its two renormalisation loops (spec/43_arith.md R232, R233, R236, R238). One pass
of either loop takes an offset off low and high and doubles them; which offset, and whether a pass is made at all,
depends on low and high only, so that the decoder follows the encoder. -/

namespace Sys2Proof.Proofs

open Sys2Proof Sys2Proof.Machine Sys2Proof.Laws Sys2Proof.Claims

/-! ### Narrow -/

section
variable {low high cl ch total : Nat}

/-- An interval at least as long as the total keeps the bounds of a symbol apart (43_arith.md R236). -/
theorem scaled_lt (hc : cl < ch) (hch : ch ≤ total) (htotal : total ≤ high - low + 1) :
    (high - low + 1) * cl / total < (high - low + 1) * ch / total := by
  rw [← Nat.add_one_le_iff, ← Nat.add_div_right _ (show 0 < total by omega)]
  refine Nat.div_le_div_right ?_
  calc (high - low + 1) * cl + total ≤ (high - low + 1) * (cl + 1) := by rw [Nat.mul_succ]; omega
    _ ≤ (high - low + 1) * ch := Nat.mul_le_mul_left _ hc

theorem narrowLow_le_narrowHigh (hc : cl < ch) (hch : ch ≤ total) (htotal : total ≤ high - low + 1) :
    narrowLow low high cl total ≤ narrowHigh low high ch total := by
  have hlt := scaled_lt hc hch htotal
  rw [narrowLow, narrowHigh]
  omega

theorem narrowHigh_le (hle : low ≤ high) (hch : ch ≤ total) : narrowHigh low high ch total ≤ high := by
  have hdiv : (high - low + 1) * ch / total ≤ high - low + 1 :=
    Nat.div_le_of_le_mul (by rw [Nat.mul_comm]; exact Nat.mul_le_mul_right _ hch)
  rw [narrowHigh]
  omega

end

/-- Settles O51: low' starts from low, and `narrowLow_le_narrowHigh` and `narrowHigh_le` bound high'. -/
theorem narrowStaysInside : Obligations.NarrowStaysInside :=
  fun _ _ _ _ _ hle _ hc hch htotal =>
    ⟨Nat.le_add_right _ _, narrowLow_le_narrowHigh hc hch htotal, narrowHigh_le hle hch⟩

/-! ### One pass -/

/-- The loops' last case: no pass is made (43_arith.md R233, R238). -/
def Settled (low high : Nat) : Prop := ¬ high < 2 ^ 31 ∧ ¬ 2 ^ 31 ≤ low ∧ ¬ (2 ^ 30 ≤ low ∧ high < 3 * 2 ^ 30)

/-- What a pass takes off low and high (43_arith.md R233, R238). -/
def passOffset (low high : Nat) : Nat := if high < 2 ^ 31 then 0 else if 2 ^ 31 ≤ low then 2 ^ 31 else 2 ^ 30

/-- One pass of the encoder's loop (43_arith.md R233). -/
def encPass (e : Enc) : Enc :=
  if e.high < 2 ^ 31 then (e.emit false).double
  else if 2 ^ 31 ≤ e.low then ((e.emit true).lower (2 ^ 31)).double
  else Enc.double ⟨e.low - 2 ^ 30, e.high - 2 ^ 30, e.pending + 1, e.bits⟩

/-- One pass of the decoder's loop (43_arith.md R238). -/
def decPass (bits : Bits) (d : Dec) : Dec :=
  ⟨2 * (d.low - passOffset d.low d.high), 2 * (d.high - passOffset d.low d.high) + 1,
    2 * (d.value - passOffset d.low d.high) + (bits.getD d.pos false).toNat, d.pos + 1⟩

theorem not_settled_cases {low high : Nat} (h : ¬ Settled low high) :
    high < 2 ^ 31 ∨ (¬ high < 2 ^ 31 ∧ 2 ^ 31 ≤ low)
      ∨ (¬ high < 2 ^ 31 ∧ ¬ 2 ^ 31 ≤ low ∧ 2 ^ 30 ≤ low ∧ high < 3 * 2 ^ 30) := by
  unfold Settled at h
  omega

theorem enc_renorm_of_settled {e : Enc} (h : Settled e.low e.high) (n : Nat) : Enc.renorm n e = e := by
  obtain ⟨h1, h2, h3⟩ := h
  cases n with
  | zero => rfl
  | succ n => exact (if_neg h1).trans ((if_neg h2).trans (if_neg h3))

theorem enc_renorm_succ {e : Enc} (h : ¬ Settled e.low e.high) (n : Nat) :
    Enc.renorm (n + 1) e = Enc.renorm n (encPass e) := by
  rcases not_settled_cases h with h1 | ⟨h1, h2⟩ | ⟨h1, h2, h3⟩
  · rw [encPass, if_pos h1]
    exact if_pos h1
  · rw [encPass, if_neg h1, if_pos h2]
    exact (if_neg h1).trans (if_pos h2)
  · rw [encPass, if_neg h1, if_neg h2]
    exact (if_neg h1).trans ((if_neg h2).trans (if_pos h3))

theorem bitVal_eq_toNat (b : Bool) : bitVal b = b.toNat := by
  cases b <;> rfl

theorem decPass_eq (bits : Bits) (d : Dec) : decPass bits d = (d.lower (passOffset d.low d.high)).double bits := by
  rw [Dec.double, bitVal_eq_toNat]
  rfl

theorem dec_renorm_of_settled {d : Dec} (h : Settled d.low d.high) (n : Nat) (bits : Bits) :
    Dec.renorm n bits d = d := by
  obtain ⟨h1, h2, h3⟩ := h
  cases n with
  | zero => rfl
  | succ n => exact (if_neg h1).trans ((if_neg h2).trans (if_neg h3))

theorem dec_renorm_succ {d : Dec} (h : ¬ Settled d.low d.high) (n : Nat) (bits : Bits) :
    Dec.renorm (n + 1) bits d = Dec.renorm n bits (decPass bits d) := by
  rw [decPass_eq]
  rcases not_settled_cases h with h1 | ⟨h1, h2⟩ | ⟨h1, h2, h3⟩
  · rw [passOffset, if_pos h1]
    exact if_pos h1
  · rw [passOffset, if_neg h1, if_pos h2]
    exact (if_neg h1).trans (if_pos h2)
  · rw [passOffset, if_neg h1, if_neg h2]
    exact (if_neg h1).trans ((if_neg h2).trans (if_pos h3))

/-- The statements' loops make the model's passes. -/
theorem encLoop_of_encPass {e f : Enc} (h : ¬ Settled e.low e.high) (hl : EncLoop (encPass e) f) : EncLoop e f := by
  rw [encPass] at hl
  rcases not_settled_cases h with h1 | ⟨h1, h2⟩ | ⟨h1, h2, h3, h4⟩
  · rw [if_pos h1] at hl
    exact .zero e f h1 hl
  · rw [if_neg h1, if_pos h2] at hl
    exact .one e f h1 h2 hl
  · rw [if_neg h1, if_neg h2] at hl
    exact .under e f h1 h2 h3 h4 hl

theorem decLoop_of_decPass {bits : Bits} {d f : Dec} (h : ¬ Settled d.low d.high)
    (hl : DecLoop bits (decPass bits d) f) : DecLoop bits d f := by
  rw [decPass, passOffset] at hl
  rcases not_settled_cases h with h1 | ⟨h1, h2⟩ | ⟨h1, h2, h3, h4⟩
  · rw [if_pos h1] at hl
    exact .zero d f h1 hl
  · rw [if_neg h1, if_pos h2] at hl
    exact .one d f h1 h2 hl
  · rw [if_neg h1, if_neg h2] at hl
    exact .under d f h1 h2 h3 h4 hl

theorem encPass_low (e : Enc) : (encPass e).low = 2 * (e.low - passOffset e.low e.high) := by
  rw [encPass, passOffset]
  split_ifs <;> rfl

theorem encPass_high (e : Enc) : (encPass e).high = 2 * (e.high - passOffset e.low e.high) + 1 := by
  rw [encPass, passOffset]
  split_ifs <;> rfl

/-- The offset is at most low, and what is left of high can be doubled (43_arith.md R236). -/
theorem passOffset_bounds {low high : Nat} (h : ¬ Settled low high) (hhigh : high ≤ 2 ^ 32 - 1) :
    passOffset low high ≤ low ∧ high < passOffset low high + 2 ^ 31 := by
  rw [passOffset]
  rcases not_settled_cases h with h1 | ⟨h1, h2⟩ | ⟨h1, h2, h3⟩
  · rw [if_pos h1]
    omega
  · rw [if_neg h1, if_pos h2]
    omega
  · rw [if_neg h1, if_neg h2]
    omega

/-! ### The encoder's loop -/

/-- An interval inside [0, TOP] (43_arith.md R236). -/
structure InRange (e : Enc) : Prop where
  ordered : e.low ≤ e.high
  high_le : e.high ≤ 2 ^ 32 - 1

theorem InRange.encPass {e : Enc} (h : InRange e) (hs : ¬ Settled e.low e.high) : InRange (encPass e) := by
  obtain ⟨hle, hhigh⟩ := h
  obtain ⟨_, hlt⟩ := passOffset_bounds hs hhigh
  constructor <;> rw [encPass_high]
  · rw [encPass_low]
    omega
  · omega

theorem InRange.renorm {e : Enc} (h : InRange e) (n : Nat) : InRange (Enc.renorm n e) := by
  induction n generalizing e with
  | zero => exact h
  | succ n ih =>
    by_cases hs : Settled e.low e.high
    · rwa [enc_renorm_of_settled hs]
    · rw [enc_renorm_succ hs]
      exact ih (h.encPass hs)

/-- Passes enough to double the interval to 2^32 are enough to reach the loop's exit (43_arith.md R236). -/
theorem settled_renorm {e : Enc} (h : InRange e) {n : Nat} (hn : 2 ^ 32 ≤ (e.high - e.low + 1) * 2 ^ n) :
    Settled (Enc.renorm n e).low (Enc.renorm n e).high := by
  induction n generalizing e with
  | zero =>
    have hhigh := h.high_le
    change Settled e.low e.high
    unfold Settled
    omega
  | succ n ih =>
    by_cases hs : Settled e.low e.high
    · rwa [enc_renorm_of_settled hs]
    · rw [enc_renorm_succ hs]
      refine ih (h.encPass hs) ?_
      have hle := h.ordered
      obtain ⟨hoff, _⟩ := passOffset_bounds hs h.high_le
      have hdouble : (encPass e).high - (encPass e).low + 1 = (e.high - e.low + 1) * 2 := by
        rw [encPass_high, encPass_low]
        omega
      rwa [hdouble, Nat.mul_assoc, ← Nat.pow_succ']

theorem settled_renormPasses {e : Enc} (h : InRange e) :
    Settled (Enc.renorm renormPasses e).low (Enc.renorm renormPasses e).high :=
  settled_renorm h (Nat.le_mul_of_pos_left _ (Nat.succ_pos _))

theorem encLoop_renorm {e : Enc} {n : Nat} (h : Settled (Enc.renorm n e).low (Enc.renorm n e).high) :
    EncLoop e (Enc.renorm n e) := by
  induction n generalizing e with
  | zero => exact .exit e h.1 h.2.1 h.2.2
  | succ n ih =>
    by_cases hs : Settled e.low e.high
    · rw [enc_renorm_of_settled hs]
      exact .exit e hs.1 hs.2.1 hs.2.2
    · rw [enc_renorm_succ hs] at h ⊢
      exact encLoop_of_encPass hs (ih h)

/-- An interval the loop leaves is longer than QUARTER (43_arith.md R236). -/
theorem quarter_lt_of_settled {low high : Nat} (h : Settled low high) : 2 ^ 30 < high - low + 1 := by
  unfold Settled at h
  omega

/-! ### The decoder's loop -/

/-- The decoder has the encoder's interval, and its value inside it (43_arith.md R239). -/
structure Follows (d : Dec) (e : Enc) : Prop where
  low_eq : d.low = e.low
  high_eq : d.high = e.high
  low_le : d.low ≤ d.value
  le_high : d.value ≤ d.high

theorem Follows.settled_iff {d : Dec} {e : Enc} (h : Follows d e) : Settled d.low d.high ↔ Settled e.low e.high := by
  rw [h.low_eq, h.high_eq]

theorem Follows.pass {d : Dec} {e : Enc} (h : Follows d e) (hr : InRange e) (hs : ¬ Settled e.low e.high)
    (bits : Bits) : Follows (decPass bits d) (encPass e) := by
  obtain ⟨hl, hh, hv1, hv2⟩ := h
  obtain ⟨hoff, _⟩ := passOffset_bounds hs hr.high_le
  have hbit := Bool.toNat_le (bits.getD d.pos false)
  refine ⟨?_, ?_, ?_, ?_⟩
  · rw [encPass_low, ← hl, ← hh]
    rfl
  · rw [encPass_high, ← hl, ← hh]
    rfl
  all_goals
    rw [← hl, ← hh] at hoff
    simp only [decPass]
    omega

theorem Follows.renorm {d : Dec} {e : Enc} (h : Follows d e) (hr : InRange e) (n : Nat) (bits : Bits) :
    Follows (Dec.renorm n bits d) (Enc.renorm n e) := by
  induction n generalizing d e with
  | zero => exact h
  | succ n ih =>
    by_cases hs : Settled e.low e.high
    · rwa [enc_renorm_of_settled hs, dec_renorm_of_settled (h.settled_iff.mpr hs)]
    · rw [enc_renorm_succ hs, dec_renorm_succ (mt h.settled_iff.mp hs)]
      exact ih (h.pass hr hs bits) (hr.encPass hs)

theorem decLoop_renorm {bits : Bits} {d : Dec} {n : Nat}
    (h : Settled (Dec.renorm n bits d).low (Dec.renorm n bits d).high) : DecLoop bits d (Dec.renorm n bits d) := by
  induction n generalizing d with
  | zero => exact .exit d h.1 h.2.1 h.2.2
  | succ n ih =>
    by_cases hs : Settled d.low d.high
    · rw [dec_renorm_of_settled hs]
      exact .exit d hs.1 hs.2.1 hs.2.2
    · rw [dec_renorm_succ hs] at h ⊢
      exact decLoop_of_decPass hs (ih h)

/-- A decoder that follows an encoder runs its loop to the exit too. -/
theorem Follows.decLoop {d : Dec} {e : Enc} (h : Follows d e) (hr : InRange e) (bits : Bits) :
    DecLoop bits d (Dec.renorm renormPasses bits d) :=
  decLoop_renorm ((h.renorm hr renormPasses bits).settled_iff.mpr (settled_renormPasses hr))

/-- Settles O52: 32 passes reach the exit (`settled_renormPasses`) inside [0, TOP] (`InRange.renorm`), and the decoder
follows (`Follows.renorm`). -/
theorem renormalisationReachesItsExit : Obligations.RenormalisationReachesItsExit := by
  refine ⟨fun e hle hhigh => ?_, fun d e bits hl hh hv1 hv2 hhigh => ?_⟩
  · have hr : InRange e := ⟨hle, hhigh⟩
    have hs := settled_renormPasses hr
    obtain ⟨hle', hhigh'⟩ := hr.renorm renormPasses
    exact ⟨encLoop_renorm hs, hle', hhigh', quarter_lt_of_settled hs⟩
  · have hr : InRange e := ⟨hl ▸ hh ▸ hv1.trans hv2, hh ▸ hhigh⟩
    have hf : Follows d e := ⟨hl, hh, hv1, hv2⟩
    obtain ⟨hl', hh', hv1', hv2'⟩ := hf.renorm hr renormPasses bits
    exact ⟨hf.decLoop hr bits, hl', hh', hv1', hv2'⟩

end Sys2Proof.Proofs
end

section
/-! The partition (spec/43_arith.md R230): BUILD_PART, and what CUM is while PART_VALID = 1. -/

namespace Sys2Proof.Proofs

open Sys2Proof Sys2Proof.Machine Sys2Proof.Laws Sys2Proof.Claims

/-! ### BUILD_PART -/

theorem buildPartBody_of_large {s : State} (h : maxTotal < partitionTotal s.freq) (p : Operands) :
    buildPartBody p s = .early .precisionExhaustion := if_pos h

theorem buildPartBody_of_fits {s : State} (h : partitionTotal s.freq ≤ maxTotal) (p : Operands) :
    buildPartBody p s = .commit { s with cum := buildCum s.freq, model := s.model.partBuilt } :=
  if_neg (Nat.not_lt.mpr h)

theorem earlyCode_buildPart (s : State) : earlyCode .buildPart s = none := by
  rw [earlyCode_eq]
  exact congrArg (Option.map errorCode) (earlyError_free s.operands s)

/-- Settles O50: BUILD_PART passes the checks (`earlyCode_buildPart`); its step 5 compares the sum of FREQ
(`partitionTotal_eq_sum`), and it commits the sums of the first counts (`partitionSums_getD`). -/
theorem buildPartAccumulates : Obligations.BuildPartAccumulates := by
  intro s
  have htotal : partitionTotal s.freq = freqSum s.freq := partitionTotal_eq_sum s.freq
  refine ⟨fun hlarge => ?_, fun hfits => ?_⟩
  · exact exec_of_bodyOf (earlyCode_buildPart s) (buildPartBody_of_large (htotal ▸ hlarge) s.operands)
  · refine ⟨buildCum s.freq, exec_of_bodyOf (earlyCode_buildPart s) (buildPartBody_of_fits (htotal ▸ hfits) s.operands),
      fun j hj => ?_⟩
    rw [table_get_default _ 1 0 (Nat.lt_succ_of_le hj)]
    exact cumAt_buildCum (htotal ▸ hfits) hj

/-! ### A partition the coder accepts -/

/-- CUM rises from 0 to a total the coder accepts (10_state.md R75, R76; 43_arith.md R231). -/
structure Partition (cum : Table Word 257) : Prop where
  start : cumAt cum 0 = 0
  rises : ∀ i, i < 256 → cumAt cum i ≤ cumAt cum (i + 1)
  total_le : cumAt cum 256 ≤ maxTotal

section
variable {cum : Table Word 257}

theorem Partition.mono (h : Partition cum) {i j : Nat} (hij : i ≤ j) (hj : j ≤ 256) : cumAt cum i ≤ cumAt cum j := by
  induction j, hij using Nat.le_induction with
  | base => exact le_rfl
  | succ j _ ih => exact (ih (by omega)).trans (h.rises j (by omega))

theorem Partition.succ_le_total (h : Partition cum) (b : Byte) : cumAt cum (b.toNat + 1) ≤ cumAt cum 256 :=
  h.mono b.isLt le_rfl

/-- A symbol whose interval is not empty. -/
theorem Partition.lt_of_ne (h : Partition cum) {b : Byte} (hb : cumAt cum (b.toNat + 1) ≠ cumAt cum b.toNat) :
    cumAt cum b.toNat < cumAt cum (b.toNat + 1) :=
  Nat.lt_of_le_of_ne (h.rises _ b.isLt) hb.symm

/-- Every number below the total lies in some symbol's interval (43_arith.md R239). -/
theorem Partition.exists_symbol (h : Partition cum) {x : Nat} (hx : x < cumAt cum 256) :
    ∃ b : Byte, cumAt cum b.toNat ≤ x ∧ x < cumAt cum (b.toNat + 1) := by
  have hex : ∃ i, x < cumAt cum (i + 1) := ⟨255, hx⟩
  have hlt : Nat.find hex < 2 ^ 8 := Nat.lt_succ_of_le (Nat.find_le hx)
  refine ⟨BitVec.ofNat 8 (Nat.find hex), ?_⟩
  rw [BitVec.toNat_ofNat, Nat.mod_eq_of_lt hlt]
  refine ⟨?_, Nat.find_spec hex⟩
  cases hi : Nat.find hex with
  | zero =>
    rw [h.start]
    exact Nat.zero_le x
  | succ i => exact Nat.not_lt.mp (Nat.find_min hex (hi ▸ Nat.lt_succ_self i))

theorem Partition.le_of_holds (h : Partition cum) {x : Nat} {b c : Byte} (hb : cumAt cum b.toNat ≤ x)
    (hc : x < cumAt cum (c.toNat + 1)) : b.toNat ≤ c.toNat :=
  Nat.not_lt.mp fun hlt => Nat.not_lt.mpr hb (hc.trans_le (h.mono hlt b.isLt.le))

/-- No number lies in the intervals of two symbols (43_arith.md R239). -/
theorem Partition.symbol_unique (h : Partition cum) {x : Nat} {b c : Byte} (hb1 : cumAt cum b.toNat ≤ x)
    (hb2 : x < cumAt cum (b.toNat + 1)) (hc1 : cumAt cum c.toNat ≤ x) (hc2 : x < cumAt cum (c.toNat + 1)) :
    c = b :=
  BitVec.eq_of_toNat_eq (Nat.le_antisymm (h.le_of_holds hc1 hb2) (h.le_of_holds hb1 hc2))

/-- The decoder's search finds the symbol whose interval holds the target. -/
theorem Partition.symbolAt_of_holds (h : Partition cum) {x : Nat} {b : Byte} (hb1 : cumAt cum b.toNat ≤ x)
    (hb2 : x < cumAt cum (b.toNat + 1)) : symbolAt cum x = some b := by
  rw [symbolAt]
  cases hfind : (List.range 256).find? fun i => decide (cumAt cum i ≤ x) && decide (x < cumAt cum (i + 1)) with
  | none =>
    have hno := List.find?_eq_none.mp hfind b.toNat (List.mem_range.mpr b.isLt)
    simp [hb1, hb2] at hno
  | some i =>
    have hi := List.mem_range.mp (List.mem_of_find?_eq_some hfind)
    obtain ⟨hc1, hc2⟩ : cumAt cum i ≤ x ∧ x < cumAt cum (i + 1) := by simpa using List.find?_some hfind
    have hmod : (BitVec.ofNat 8 i).toNat = i := by rw [BitVec.toNat_ofNat, Nat.mod_eq_of_lt hi]
    have hsame : BitVec.ofNat 8 i = b := h.symbol_unique hb1 hb2 (hmod.symm ▸ hc1) (hmod.symm ▸ hc2)
    rw [Option.map_some, hsame]

end

/-- A command that needs PART_VALID runs on a partition the coder accepts: it cannot exhaust the precision
(43_arith.md R235). -/
theorem partition_of_passes {i : Instr} {s : State} (hinv : Inv s) (hneeds : (usesOf i).needs = some .part)
    (h : earlyCode i s = none) : Partition s.cum := by
  obtain ⟨_, _, hbit⟩ := (earlyError_none_iff ..).mp (earlyError_of_earlyCode_none h)
  obtain ⟨hcum, htotal⟩ := hinv.partBuilt (by simpa [notBuilt, hneeds, ModelReg.valid] using hbit)
  refine ⟨hinv.cumStart, hinv.cumRises, ?_⟩
  rw [hcum, cumAt_buildCum htotal le_rfl]
  exact (take_sum_le_partitionTotal _ _).trans htotal

end Sys2Proof.Proofs
end

section
/-! ARITH_ENC (spec/43_arith.md R235): the loops of Narrow and renormalisation over the body, terminated, give the bits
that are stored packed. -/

namespace Sys2Proof.Proofs

open Sys2Proof Sys2Proof.Machine Sys2Proof.Laws Sys2Proof.Claims

/-! ### One symbol -/

/-- Before every symbol the interval lies inside [0, TOP], is at least as long as the total, and needs no pass
(43_arith.md R236). -/
structure Ready (cum : Table Word 257) (e : Enc) : Prop where
  inRange : InRange e
  total_le : cumAt cum 256 ≤ e.high - e.low + 1
  settled : Settled e.low e.high

/-- The encoder's working values after Narrow (43_arith.md R232, R235). -/
def encNarrow (cum : Table Word 257) (e : Enc) (b : Byte) : Enc :=
  ⟨narrowLow e.low e.high (cumAt cum b.toNat) (cumAt cum 256),
    narrowHigh e.low e.high (cumAt cum (b.toNat + 1)) (cumAt cum 256), e.pending, e.bits⟩

section
variable {cum : Table Word 257} {e : Enc} {b : Byte}

theorem ready_of_settled (hp : Partition cum) (hr : InRange e) (hs : Settled e.low e.high) : Ready cum e := by
  have hquarter := quarter_lt_of_settled hs
  have htotal := hp.total_le
  rw [maxTotal] at htotal
  exact ⟨hr, by omega, hs⟩

theorem ready_start (hp : Partition cum) : Ready cum Enc.start :=
  ready_of_settled hp ⟨by decide, by decide⟩ (by unfold Settled; decide)

theorem Ready.inRange_encNarrow (h : Ready cum e) (hp : Partition cum)
    (hb : cumAt cum (b.toNat + 1) ≠ cumAt cum b.toNat) : InRange (encNarrow cum e b) :=
  have hch := hp.succ_le_total b
  ⟨narrowLow_le_narrowHigh (hp.lt_of_ne hb) hch h.total_le,
    (narrowHigh_le h.inRange.ordered hch).trans h.inRange.high_le⟩

/-- The interval never empties (43_arith.md R236). -/
theorem Ready.symbol (h : Ready cum e) (hp : Partition cum) (hb : cumAt cum (b.toNat + 1) ≠ cumAt cum b.toNat) :
    Ready cum (e.symbol cum b) :=
  have hr := h.inRange_encNarrow hp hb
  ready_of_settled hp (hr.renorm renormPasses) (settled_renormPasses hr)

/-! ### The loop over the body -/

theorem emptyInterval_eq_true_iff : emptyInterval cum b = true ↔ cumAt cum (b.toNat + 1) = cumAt cum b.toNat :=
  beq_iff_eq

theorem arithEncodeFrom_cons_of_ne (hb : cumAt cum (b.toNat + 1) ≠ cumAt cum b.toNat) (e : Enc) (rest : List Byte) :
    arithEncodeFrom cum e (b :: rest) = arithEncodeFrom cum (e.symbol cum b) rest :=
  if_neg (mt emptyInterval_eq_true_iff.mp hb)

theorem arithEncodeFrom_none {body : List Byte} (h : ∃ b ∈ body, cumAt cum (b.toNat + 1) = cumAt cum b.toNat)
    (e : Enc) : arithEncodeFrom cum e body = none := by
  induction body generalizing e with
  | nil => simp at h
  | cons b rest ih =>
    by_cases hb : cumAt cum (b.toNat + 1) = cumAt cum b.toNat
    · exact if_pos (emptyInterval_eq_true_iff.mpr hb)
    · rw [arithEncodeFrom_cons_of_ne hb]
      obtain ⟨c, hc, hempty⟩ := h
      rcases List.mem_cons.mp hc with rfl | hc
      · exact absurd hempty hb
      · exact ih ⟨c, hc, hempty⟩ _

/-- On a body without empty intervals the model's loop is the statements' loop, run to the end. -/
theorem Ready.exists_encBody (hp : Partition cum) (h : Ready cum e) {body : List Byte}
    (hbody : ∀ b ∈ body, cumAt cum (b.toNat + 1) ≠ cumAt cum b.toNat) :
    ∃ f, arithEncodeFrom cum e body = some f ∧ EncBody cum e body f := by
  induction body generalizing e with
  | nil => exact ⟨e, rfl, .nil e⟩
  | cons b rest ih =>
    obtain ⟨hb, hrest⟩ := List.forall_mem_cons.mp hbody
    obtain ⟨f, hf, hloop⟩ := ih (h.symbol hp hb) hrest
    refine ⟨f, (arithEncodeFrom_cons_of_ne hb e rest).trans hf, .cons e _ f b rest hb ?_ hloop⟩
    exact encLoop_renorm (settled_renormPasses (h.inRange_encNarrow hp hb))

/-- Termination is that of the statements (43_arith.md R234). -/
theorem finish_bits (e : Enc) : e.finish.bits = terminated e := by
  rw [Enc.finish, terminated]
  by_cases h : e.low < 2 ^ 30
  · have hbit : decide (coderQuarter ≤ e.low) = false := decide_eq_false (Nat.not_le.mpr h)
    rw [if_pos h, hbit]
    rfl
  · have hbit : decide (coderQuarter ≤ e.low) = true := decide_eq_true (Nat.not_lt.mp h)
    rw [if_neg h, hbit]
    rfl

theorem arithEncode_of_ne {body : List Byte} (h : body ≠ []) :
    arithEncode cum body = (arithEncodeFrom cum Enc.start body).map terminated := by
  rw [arithEncode, if_neg (mt List.length_eq_zero_iff.mp h), funext finish_bits]

end

/-! ### The command -/

section
variable {p : Operands} {s : State}

theorem arithEncBody_of_none (h : arithEncode s.cum (s.source p) = none) :
    arithEncBody p s = .late .modelMismatch := by
  rw [arithEncBody, h]

theorem arithEncBody_of_some {bits : Bits} (h : arithEncode s.cum (s.source p) = some bits) :
    arithEncBody p s = storePacked p bits { s with symCount := p.srcLen } := by
  rw [arithEncBody, h]

/-- ARITH_ENC of a body whose bits fit the destination range. -/
theorem exec_arithEnc_fits (hearly : earlyCode .arithEnc s = none) {bits : Bits}
    (h : arithEncode s.cum (body s) = some bits) (hmax : bits.length ≤ 0xFFFFFFFF)
    (hcap : ceil8 bits.length ≤ s.operands.dstCap.toNat) :
    ∃ t, exec .arithEnc s = .next t
      ∧ doneWith s t (BitVec.ofNat 32 (ceil8 bits.length)) (BitVec.ofNat 32 bits.length) s.operands.srcLen
      ∧ holdsPacked t s.operands.dstAddr.toNat bits
      ∧ sameOutside s t s.operands.dstAddr.toNat (ceil8 bits.length) := by
  have hstore := storePacked_of_fits hmax hcap { s with symCount := s.operands.srcLen }
  obtain ⟨hheld, hout⟩ := holdsPacked_of_storePacked hstore
  exact ⟨_, exec_of_bodyOf hearly ((arithEncBody_of_some h).trans hstore), rfl, hheld, hout⟩

end

/-- Settles O53: an empty interval in the body is MODEL_MISMATCH (`arithEncodeFrom_none`); otherwise the loops run to
their ends (`Ready.exists_encBody`), and the bits are stored packed or do not fit. -/
theorem arithEncEmitsTheCode : Obligations.ArithEncEmitsTheCode := by
  intro s
  refine ⟨fun c hc => exec_earlyCode hc, fun h hnil => ?_, fun h hempty => ?_, fun hinv h hne hbody => ?_⟩
  · have hlen : s.operands.srcLen.toNat = 0 := (readBytes_length s _ _).symm.trans (congrArg List.length hnil)
    have hzero : s.operands.srcLen = 0 := BitVec.eq_of_toNat_eq hlen
    obtain ⟨t, hexec, hdone, _, hout⟩ :=
      exec_arithEnc_fits (bits := []) h (by rw [hnil]; rfl) (Nat.zero_le _) (Nat.zero_le _)
    rw [hzero] at hdone
    exact ⟨t, hexec, hdone, fun a => hout a fun hin => absurd hin.2 (Nat.not_lt.mpr hin.1)⟩
  · obtain ⟨b, hb, _⟩ := id hempty
    have hnone : arithEncode s.cum (body s) = none := by
      rw [arithEncode_of_ne (List.ne_nil_of_mem hb), arithEncodeFrom_none hempty, Option.map_none]
    exact ⟨_, exec_of_bodyOf h (arithEncBody_of_none hnone), failedLate_raiseLate s .modelMismatch⟩
  · have hp := partition_of_passes hinv rfl h
    obtain ⟨e, he, hloop⟩ := (ready_start hp).exists_encBody hp hbody
    have hbits : arithEncode s.cum (body s) = some (terminated e) := by
      rw [arithEncode_of_ne hne, he, Option.map_some]
    refine ⟨e, hloop, fun hover => ?_, exec_arithEnc_fits h hbits⟩
    have hstore := (arithEncBody_of_some hbits).trans (storePacked_of_overflow hover _)
    exact ⟨_, exec_of_bodyOf h hstore, failedLate_raiseLate s .dstOverflow⟩

end Sys2Proof.Proofs
end

section
/-! ARITH_DEC (spec/43_arith.md R237, R239): whatever the bits, value stays inside the interval, so that every symbol is
found; and the decoder's loops are those of the statements. -/

namespace Sys2Proof.Proofs

open Sys2Proof Sys2Proof.Machine Sys2Proof.Laws Sys2Proof.Claims

/-! ### The target -/

/-- target reaches a bound of CUM exactly when value reaches the place of that bound in the interval. -/
theorem le_target_iff (d : Dec) {total : Nat} (ht : 0 < total) (c : Nat) :
    c ≤ target d total ↔ (d.high - d.low + 1) * c / total ≤ d.value - d.low := by
  have hpos : 0 < (d.value - d.low + 1) * total := Nat.mul_pos (Nat.succ_pos _) ht
  calc c ≤ target d total
      ↔ c * (d.high - d.low + 1) < (d.value - d.low + 1) * total := by
        rw [target, Nat.le_div_iff_mul_le (show 0 < d.high - d.low + 1 from Nat.succ_pos _)]
        omega
    _ ↔ (d.high - d.low + 1) * c / total ≤ d.value - d.low := by
        rw [← Nat.lt_succ_iff, Nat.div_lt_iff_lt_mul ht, Nat.mul_comm c]

section
variable {cum : Table Word 257} {d : Dec}

theorem target_lt_total (ht : 0 < cumAt cum 256) (hv : d.value ≤ d.high) :
    target d (cumAt cum 256) < cumAt cum 256 := by
  rw [← Nat.not_le, le_target_iff d ht, Nat.mul_div_cancel _ ht]
  omega

theorem narrow_of_target_holds (ht : 0 < cumAt cum 256) (hv : d.low ≤ d.value) {b : Byte}
    (hb1 : cumAt cum b.toNat ≤ target d (cumAt cum 256)) (hb2 : target d (cumAt cum 256) < cumAt cum (b.toNat + 1)) :
    narrowLow d.low d.high (cumAt cum b.toNat) (cumAt cum 256) ≤ d.value
      ∧ d.value ≤ narrowHigh d.low d.high (cumAt cum (b.toNat + 1)) (cumAt cum 256) := by
  rw [← Nat.not_le, le_target_iff d ht] at hb2
  rw [le_target_iff d ht] at hb1
  rw [narrowLow, narrowHigh]
  omega

theorem target_holds_of_narrow {b : Byte} (hc : cumAt cum b.toNat < cumAt cum (b.toNat + 1))
    (hch : cumAt cum (b.toNat + 1) ≤ cumAt cum 256) (htotal : cumAt cum 256 ≤ d.high - d.low + 1)
    (hv1 : narrowLow d.low d.high (cumAt cum b.toNat) (cumAt cum 256) ≤ d.value)
    (hv2 : d.value ≤ narrowHigh d.low d.high (cumAt cum (b.toNat + 1)) (cumAt cum 256)) :
    cumAt cum b.toNat ≤ target d (cumAt cum 256) ∧ target d (cumAt cum 256) < cumAt cum (b.toNat + 1) := by
  have hlt := scaled_lt hc hch htotal
  have hpos := Nat.zero_lt_of_lt hlt
  have ht : 0 < cumAt cum 256 := by omega
  rw [narrowLow] at hv1
  rw [narrowHigh] at hv2
  rw [← Nat.not_le, le_target_iff d ht, le_target_iff d ht]
  omega

end

/-! ### One symbol -/

/-- Before every symbol value lies in the interval, which is at least as long as the total (43_arith.md R239). -/
structure DecReady (cum : Table Word 257) (d : Dec) : Prop where
  low_le : d.low ≤ d.value
  le_high : d.value ≤ d.high
  high_le : d.high ≤ 2 ^ 32 - 1
  total_le : cumAt cum 256 ≤ d.high - d.low + 1

/-- The decoder's working values after Narrow (43_arith.md R232, R237). -/
def decNarrow (cum : Table Word 257) (d : Dec) (b : Byte) : Dec :=
  ⟨narrowLow d.low d.high (cumAt cum b.toNat) (cumAt cum 256),
    narrowHigh d.low d.high (cumAt cum (b.toNat + 1)) (cumAt cum 256), d.value, d.pos⟩

theorem dec_symbol_eq (cum : Table Word 257) (bits : Bits) (d : Dec) (b : Byte) :
    d.symbol cum bits b = Dec.renorm renormPasses bits (decNarrow cum d b) := rfl

/-- An encoder with the decoder's interval. -/
def encOf (d : Dec) : Enc := ⟨d.low, d.high, 0, []⟩

section
variable {cum : Table Word 257} {bits : Bits} {d : Dec} {b : Byte}

/-- The symbol's interval holds value (43_arith.md R239). -/
theorem DecReady.follows_decNarrow (h : DecReady cum d) (hp : Partition cum)
    (hb1 : cumAt cum b.toNat ≤ target d (cumAt cum 256)) (hb2 : target d (cumAt cum 256) < cumAt cum (b.toNat + 1)) :
    Follows (decNarrow cum d b) (encOf (decNarrow cum d b)) ∧ InRange (encOf (decNarrow cum d b)) := by
  have hch := hp.succ_le_total b
  obtain ⟨hv1, hv2⟩ := narrow_of_target_holds (by omega) h.low_le hb1 hb2
  exact ⟨⟨rfl, rfl, hv1, hv2⟩, hv1.trans hv2, (narrowHigh_le (h.low_le.trans h.le_high) hch).trans h.high_le⟩

theorem DecReady.symbol (h : DecReady cum d) (hp : Partition cum)
    (hb1 : cumAt cum b.toNat ≤ target d (cumAt cum 256)) (hb2 : target d (cumAt cum 256) < cumAt cum (b.toNat + 1)) :
    DecReady cum (d.symbol cum bits b) := by
  obtain ⟨hf, hr⟩ := h.follows_decNarrow hp hb1 hb2
  obtain ⟨hl, hh, hv1, hv2⟩ := hf.renorm hr renormPasses bits
  obtain ⟨⟨_, hhigh⟩, htotal, _⟩ := ready_of_settled hp (hr.renorm renormPasses) (settled_renormPasses hr)
  rw [dec_symbol_eq]
  exact ⟨hv1, hv2, hh ▸ hhigh, by rwa [hl, hh]⟩

/-! ### The loop -/

theorem arithDecodeFrom_succ (h : symbolAt cum (target d (cumAt cum 256)) = some b) (n : Nat) :
    arithDecodeFrom cum bits (n + 1) d
      = (arithDecodeFrom cum bits n (d.symbol cum bits b)).map (fun out => b :: out) := by
  have htarget : symbolAt cum (d.target (cumAt cum 256)) = some b := h
  rw [arithDecodeFrom, htarget]

/-- On a partition that is not empty every symbol is found (43_arith.md R239). -/
theorem DecReady.exists_decBody (hp : Partition cum) (ht : cumAt cum 256 ≠ 0) (h : DecReady cum d) (n : Nat) :
    ∃ out, arithDecodeFrom cum bits n d = some out ∧ out.length = n ∧ DecBody cum bits d out := by
  induction n generalizing d with
  | zero => exact ⟨[], rfl, rfl, .nil d⟩
  | succ n ih =>
    obtain ⟨b, hb1, hb2⟩ := hp.exists_symbol (target_lt_total (Nat.pos_of_ne_zero ht) h.le_high)
    obtain ⟨out, hout, hlen, hloop⟩ := ih (h.symbol hp hb1 hb2)
    obtain ⟨hf, hr⟩ := h.follows_decNarrow hp hb1 hb2
    refine ⟨b :: out, ?_, congrArg Nat.succ hlen, .cons d _ b out h.low_le h.le_high hb1 hb2
      (fun c hc1 hc2 => hp.symbol_unique hb1 hb2 hc1 hc2) (hf.decLoop hr bits) hloop⟩
    rw [arithDecodeFrom_succ (hp.symbolAt_of_holds hb1 hb2), hout, Option.map_some]

end

/-! ### The first value -/

theorem firstValue_eq (bits : Bits) : firstValue bits = leadingValue bits 32 := by
  have hfold : ∀ n, (List.range n).foldl (fun v j => 2 * v + bitVal (bitOrZero bits j)) 0 = leadingValue bits n := by
    intro n
    induction n with
    | zero => rfl
    | succ n ih =>
      rw [List.range_succ, List.foldl_concat, ih, bitVal_eq_toNat]
      rfl
  exact hfold 32

theorem leadingValue_lt (bits : Bits) (n : Nat) : leadingValue bits n < 2 ^ n := by
  induction n with
  | zero => exact Nat.one_pos
  | succ n ih =>
    have hbit := Bool.toNat_le (bits.getD n false)
    rw [leadingValue, Nat.pow_succ]
    omega

theorem dec_start_eq (bits : Bits) : Dec.start bits = decStart bits := by
  rw [Dec.start, firstValue_eq]
  rfl

theorem decReady_decStart {cum : Table Word 257} (hp : Partition cum) (bits : Bits) : DecReady cum (decStart bits) :=
  ⟨Nat.zero_le _, Nat.le_pred_of_lt (leadingValue_lt bits 32), le_rfl,
    hp.total_le.trans (show maxTotal ≤ 2 ^ 32 - 1 - 0 + 1 by decide)⟩

/-! ### The command -/

theorem arithDecode_zero (cum : Table Word 257) (bits : Bits) : arithDecode cum bits 0 = some [] := rfl

section
variable {cum : Table Word 257} {bits : Bits} {n : Nat}

theorem arithDecode_of_total_zero (hn : n ≠ 0) (ht : cumAt cum 256 = 0) : arithDecode cum bits n = none :=
  (if_neg hn).trans (if_pos ht)

theorem arithDecode_of_total_pos (hn : n ≠ 0) (ht : cumAt cum 256 ≠ 0) :
    arithDecode cum bits n = arithDecodeFrom cum bits n (decStart bits) := by
  rw [← dec_start_eq]
  exact (if_neg hn).trans (if_neg ht)

end

section
variable {p : Operands} {s : State}

theorem arithDecBody_of_short (h : p.srcLen.toNat < ceil8 p.bitLen.toNat) : arithDecBody p s = .early .invalidInput :=
  if_pos (decide_eq_true h)

theorem arithDecBody_of_none (hlen : ceil8 p.bitLen.toNat ≤ p.srcLen.toNat)
    (h : arithDecode s.cum (s.sourceBits p) p.symCount.toNat = none) : arithDecBody p s = .late .modelMismatch := by
  rw [arithDecBody, sourceTooShort, decide_eq_false (Nat.not_lt.mpr hlen), if_neg Bool.false_ne_true, h]

theorem arithDecBody_of_some (hlen : ceil8 p.bitLen.toNat ≤ p.srcLen.toNat) {out : List Byte}
    (h : arithDecode s.cum (s.sourceBits p) p.symCount.toNat = some out) : arithDecBody p s = storeOutput p out s := by
  rw [arithDecBody, sourceTooShort, decide_eq_false (Nat.not_lt.mpr hlen), if_neg Bool.false_ne_true, h]

/-- ARITH_DEC of symbols that fit the destination range. -/
theorem exec_arithDec_fits (hearly : earlyCode .arithDec s = none)
    (hlen : ceil8 s.operands.bitLen.toNat ≤ s.operands.srcLen.toNat) {out : List Byte}
    (h : arithDecode s.cum (s.sourceBits s.operands) s.operands.symCount.toNat = some out)
    (hcap : out.length ≤ s.operands.dstCap.toNat) :
    ∃ t, exec .arithDec s = .next t
      ∧ doneWith s t (BitVec.ofNat 32 out.length) s.bitLen s.symCount
      ∧ holds t s.operands.dstAddr.toNat out
      ∧ sameOutside s t s.operands.dstAddr.toNat out.length := by
  have hstore := storeOutput_of_fits hcap s
  have hheld := holds_of_storeOutput hstore
  exact ⟨_, exec_of_bodyOf hearly ((arithDecBody_of_some hlen h).trans hstore), rfl, hheld,
    fun x hx => readByte_writeBytes_outside s _ x out hx⟩

end

/-- Settles O54: each clause says what `arithDecode` gives; with T > 0 that is SYM_COUNT symbols
(`DecReady.exists_decBody`). -/
theorem arithDecAlwaysFindsItsSymbols : Obligations.ArithDecAlwaysFindsItsSymbols := by
  intro s
  have hpos : s.operands.symCount ≠ 0 → s.operands.symCount.toNat ≠ 0 := mt fun h0 => BitVec.eq_of_toNat_eq h0
  refine ⟨fun c hc => exec_earlyCode hc, fun h hshort => exec_of_bodyOf h (arithDecBody_of_short hshort),
    fun h hlen => ⟨fun hzero => ?_, fun hcount ht => ?_, fun hinv hcount ht hcap => ?_, fun hinv hcount ht hcap => ?_⟩⟩
  · have hdec : arithDecode s.cum (s.sourceBits s.operands) s.operands.symCount.toNat = some [] := by
      rw [hzero]
      exact arithDecode_zero ..
    obtain ⟨t, hexec, hdone, _, hout⟩ := exec_arithDec_fits h hlen hdec (Nat.zero_le _)
    exact ⟨t, hexec, hdone, fun a => hout a fun hin => absurd hin.2 (Nat.not_lt.mpr hin.1)⟩
  · have hnone := arithDecBody_of_none hlen (arithDecode_of_total_zero (hpos hcount) ht)
    exact ⟨_, exec_of_bodyOf h hnone, failedLate_raiseLate s .modelMismatch⟩
  all_goals
    have hp := partition_of_passes hinv rfl h
    obtain ⟨out, hout, hsize, hloop⟩ := (decReady_decStart hp (s.sourceBits s.operands)).exists_decBody hp ht
      s.operands.symCount.toNat
    rw [← arithDecode_of_total_pos (hpos hcount) ht] at hout
  · have hstore := (arithDecBody_of_some hlen hout).trans (storeOutput_of_overflow (hsize ▸ hcap) s)
    exact ⟨_, exec_of_bodyOf h hstore, failedLate_raiseLate s .dstOverflow⟩
  · obtain ⟨t, hexec, hdone, hheld, hsame⟩ := exec_arithDec_fits h hlen hout (hsize.trans_le hcap)
    rw [hsize, BitVec.ofNat_toNat, BitVec.setWidth_eq] at hdone
    exact ⟨t, out, hexec, hsize, hloop, hdone, hheld, hsame⟩

end Sys2Proof.Proofs
end

section
/-! The round trip of the arithmetic coder (spec/43_arith.md R240). The encoder's bits, read as a number, place its
interval in the unit interval of the whole stream; every pass and every Narrow keeps the place, so the stream that
termination picks inside the last interval lies inside all of them, and the decoder reads back each symbol. -/

namespace Sys2Proof.Proofs

open Sys2Proof Sys2Proof.Machine Sys2Proof.Laws Sys2Proof.Claims

/-! ### Bits as a number -/

/-- The number a bitstring writes, its first bit the most significant. -/
def bitsNumber (bits : Bits) : Nat := leadingValue bits bits.length

theorem leadingValue_nil (n : Nat) : leadingValue [] n = 0 := by
  induction n with
  | zero => rfl
  | succ n ih => rw [leadingValue, ih]; rfl

theorem leadingValue_append_of_le (xs ys : Bits) {n : Nat} (h : n ≤ xs.length) :
    leadingValue (xs ++ ys) n = leadingValue xs n := by
  induction n with
  | zero => rfl
  | succ n ih => rw [leadingValue, leadingValue, ih (by omega), List.getD_append _ _ _ _ h]

theorem leadingValue_append (xs ys : Bits) (n : Nat) :
    leadingValue (xs ++ ys) (xs.length + n) = bitsNumber xs * 2 ^ n + leadingValue ys n := by
  induction n with
  | zero => simpa [leadingValue, bitsNumber] using leadingValue_append_of_le xs ys le_rfl
  | succ n ih =>
    rw [Nat.add_succ, leadingValue, ih, List.getD_append_right _ _ _ _ (Nat.le_add_right ..), Nat.add_sub_cancel_left,
      leadingValue]
    ring

/-- Bits read past the end are zeros. -/
theorem leadingValue_past (bits : Bits) (n : Nat) : leadingValue bits (bits.length + n) = bitsNumber bits * 2 ^ n := by
  simpa [leadingValue_nil] using leadingValue_append bits [] n

theorem bitsNumber_append (xs ys : Bits) : bitsNumber (xs ++ ys) = bitsNumber xs * 2 ^ ys.length + bitsNumber ys := by
  rw [bitsNumber, List.length_append, leadingValue_append]
  rfl

/-- A bit with `n` bits of the other kind behind it is 2^n, or 2^n - 1 when the first is 0. -/
theorem bitsNumber_emitted (b : Bool) (n : Nat) : bitsNumber (b :: List.replicate n (!b)) + (!b).toNat = 2 ^ n := by
  induction n with
  | zero => cases b <;> rfl
  | succ n ih =>
    rw [List.replicate_succ', ← List.cons_append, bitsNumber_append]
    have hlast : bitsNumber [!b] = (!b).toNat := by cases b <;> rfl
    rw [hlast, List.length_singleton, Nat.pow_succ]
    omega

/-! ### The place of the interval in the stream -/

/-- The passes the encoder has made: each gave a bit or a pending one. -/
def passCount (e : Enc) : Nat := e.bits.length + e.pending

/-- What the passes have taken off low and high so far, at the scale of the present interval, and HALF. With HALF added
every pass obeys one equation (`mark_encPass`), whether it emits bits or leaves one pending. The decoder's value is the
number it has read less what was taken off (`InStep.value_eq`). -/
def mark (e : Enc) : Nat := (2 * bitsNumber e.bits + 1) * 2 ^ (e.pending + 31)

/-- The stream goes on, from where the encoder stands, into its interval. -/
def Covers (stream : Bits) (e : Enc) : Prop :=
  e.low + mark e ≤ leadingValue stream (passCount e + 32) + 2 ^ 31
    ∧ leadingValue stream (passCount e + 32) + 2 ^ 31 ≤ e.high + mark e

theorem bitsNumber_emit (e : Enc) (b : Bool) :
    bitsNumber (e.emit b).bits + (!b).toNat = (2 * bitsNumber e.bits + 1) * 2 ^ e.pending := by
  have hnew := bitsNumber_emitted b e.pending
  rw [Enc.emit, bitsNumber_append, List.length_cons, List.length_replicate, Nat.add_assoc, hnew]
  ring

/-- A bit emitted doubles the mark, but for the HALF the pass itself takes off. -/
theorem mark_emit (e : Enc) (b : Bool) : mark (e.emit b) + 2 ^ 32 * (!b).toNat = 2 * mark e + 2 ^ 31 := by
  have hmark : mark e = (bitsNumber (e.emit b).bits + (!b).toNat) * 2 ^ 31 := by
    rw [bitsNumber_emit, mark, Nat.pow_add, Nat.mul_assoc]
  have hmark' : mark (e.emit b) = (2 * bitsNumber (e.emit b).bits + 1) * 2 ^ 31 := rfl
  omega

theorem passCount_emit (e : Enc) (b : Bool) : passCount (e.emit b) = passCount e + 1 := by
  simp only [passCount, Enc.emit, List.length_append, List.length_cons, List.length_replicate]
  omega

section
variable (e : Enc) (x : Nat)

@[simp] theorem mark_double : mark e.double = mark e := rfl
@[simp] theorem mark_lower : mark (e.lower x) = mark e := rfl
@[simp] theorem passCount_double : passCount e.double = passCount e := rfl
@[simp] theorem passCount_lower : passCount (e.lower x) = passCount e := rfl

end

/-- A bit left pending doubles the mark too. -/
theorem mark_pending (e : Enc) (low high : Nat) : mark ⟨low, high, e.pending + 1, e.bits⟩ = 2 * mark e := by
  simp only [mark]
  ring

theorem mark_encPass (e : Enc) : mark (encPass e) + 2 ^ 31 = 2 * (mark e + passOffset e.low e.high) := by
  rw [encPass, passOffset]
  split_ifs
  · have hmark := mark_emit e false
    rw [Bool.not_false, Bool.toNat_true] at hmark
    rw [mark_double]
    omega
  · have hmark := mark_emit e true
    rw [Bool.not_true, Bool.toNat_false] at hmark
    rw [mark_double, mark_lower]
    omega
  · rw [mark_double, mark_pending]
    omega

theorem passCount_encPass (e : Enc) : passCount (encPass e) = passCount e + 1 := by
  rw [encPass]
  split_ifs
  · rw [passCount_double, passCount_emit]
  · rw [passCount_double, passCount_lower, passCount_emit]
  · rw [passCount_double, passCount, passCount, Nat.add_assoc]

section
variable {stream : Bits} {cum : Table Word 257} {e f : Enc}

/-- What covers the interval after a pass covered it before. -/
theorem Covers.of_encPass (h : Covers stream (encPass e)) (hr : InRange e) (hs : ¬ Settled e.low e.high) :
    Covers stream e := by
  obtain ⟨hoff, _⟩ := passOffset_bounds hs hr.high_le
  have hle := hr.ordered
  have hmark := mark_encPass e
  have hbit := Bool.toNat_le (stream.getD (passCount e + 32) false)
  unfold Covers at h ⊢
  rw [passCount_encPass, Nat.add_right_comm, leadingValue, encPass_low, encPass_high] at h
  omega

theorem Covers.of_renorm {n : Nat} (hr : InRange e) (h : Covers stream (Enc.renorm n e)) : Covers stream e := by
  induction n generalizing e with
  | zero => exact h
  | succ n ih =>
    by_cases hs : Settled e.low e.high
    · rwa [enc_renorm_of_settled hs] at h
    · rw [enc_renorm_succ hs] at h
      exact (ih (hr.encPass hs) h).of_encPass hr hs

theorem Covers.of_encNarrow {b : Byte} (hp : Partition cum) (hr : Ready cum e) (h : Covers stream (encNarrow cum e b)) :
    Covers stream e := by
  obtain ⟨hlow, hhigh⟩ := h
  have hin : (encNarrow cum e b).high ≤ e.high := narrowHigh_le hr.inRange.ordered (hp.succ_le_total b)
  exact ⟨(Nat.add_le_add_right (Nat.le_add_right _ _) _).trans hlow, hhigh.trans (Nat.add_le_add_right hin _)⟩

theorem arithEncodeFrom_cons_eq_some {b : Byte} {rest : List Byte} (h : arithEncodeFrom cum e (b :: rest) = some f) :
    cumAt cum (b.toNat + 1) ≠ cumAt cum b.toNat ∧ arithEncodeFrom cum (e.symbol cum b) rest = some f := by
  by_cases hb : cumAt cum (b.toNat + 1) = cumAt cum b.toNat
  · rw [arithEncodeFrom_none ⟨b, List.mem_cons_self, hb⟩] at h
    cases h
  · exact ⟨hb, (arithEncodeFrom_cons_of_ne hb e rest).symm.trans h⟩

/-- What covers the interval after a body covered it before every symbol. -/
theorem Covers.of_arithEncodeFrom (hp : Partition cum) {body : List Byte} (hr : Ready cum e)
    (henc : arithEncodeFrom cum e body = some f) (h : Covers stream f) : Covers stream e := by
  induction body generalizing e with
  | nil =>
    obtain rfl := Option.some.inj henc
    exact h
  | cons b rest ih =>
    obtain ⟨hb, hrest⟩ := arithEncodeFrom_cons_eq_some henc
    exact .of_encNarrow hp hr (.of_renorm (hr.inRange_encNarrow hp hb) (ih (hr.symbol hp hb) hrest))

theorem Ready.of_arithEncodeFrom (hp : Partition cum) {body : List Byte} (hr : Ready cum e)
    (henc : arithEncodeFrom cum e body = some f) : Ready cum f := by
  induction body generalizing e with
  | nil =>
    obtain rfl := Option.some.inj henc
    exact hr
  | cons b rest ih =>
    obtain ⟨hb, hrest⟩ := arithEncodeFrom_cons_eq_some henc
    exact ih (hr.symbol hp hb) hrest

/-- Termination picks a value of the interval, QUARTER or HALF (43_arith.md R234). -/
theorem covers_terminated (hs : Settled e.low e.high) : Covers (terminated e) e := by
  obtain ⟨h1, h2, _⟩ := hs
  have hlen : e.finish.bits.length = passCount e + 2 := passCount_emit { e with pending := e.pending + 1 } _
  have hmark : (bitsNumber e.finish.bits + (!decide (coderQuarter ≤ e.low)).toNat) * 2 ^ 30 = mark e := by
    rw [Enc.finish, bitsNumber_emit, mark, Nat.mul_assoc, ← Nat.pow_add, Nat.add_assoc]
  rw [← finish_bits, Covers, show passCount e + 32 = e.finish.bits.length + 30 by rw [hlen], leadingValue_past]
  by_cases hq : coderQuarter ≤ e.low
  · rw [decide_eq_true hq, Bool.not_true, Bool.toNat_false] at hmark
    omega
  · rw [decide_eq_false hq, Bool.not_false, Bool.toNat_true] at hmark
    rw [coderQuarter] at hq
    omega

end

/-! ### The decoder in step with the encoder -/

/-- The decoder has the encoder's interval, and the number it has read so far is its value at the interval's place. -/
structure InStep (stream : Bits) (d : Dec) (e : Enc) : Prop where
  low_eq : d.low = e.low
  high_eq : d.high = e.high
  pos_eq : d.pos = passCount e + 32
  value_eq : d.value + mark e = leadingValue stream (passCount e + 32) + 2 ^ 31

section
variable {stream : Bits} {cum : Table Word 257} {d : Dec} {e : Enc}

theorem InStep.follows (h : InStep stream d e) (hc : Covers stream e) : Follows d e := by
  obtain ⟨hl, hh, _, hv⟩ := h
  unfold Covers at hc
  exact ⟨hl, hh, by omega, by omega⟩

theorem InStep.pass (h : InStep stream d e) (hf : Follows d e) (hr : InRange e) (hs : ¬ Settled e.low e.high) :
    InStep stream (decPass stream d) (encPass e) := by
  obtain ⟨hl, hh, hpos, hv⟩ := h
  obtain ⟨hl', hh', _, _⟩ := hf.pass hr hs stream
  obtain ⟨hoff, _⟩ := passOffset_bounds hs hr.high_le
  have hmark := mark_encPass e
  have hlow := hf.low_le
  refine ⟨hl', hh', ?_, ?_⟩
  · rw [passCount_encPass, Nat.add_right_comm, ← hpos]
    rfl
  · rw [passCount_encPass, Nat.add_right_comm, leadingValue]
    simp only [decPass, hl, hh, hpos]
    omega

theorem InStep.renorm (h : InStep stream d e) (hf : Follows d e) (hr : InRange e) (n : Nat) :
    InStep stream (Dec.renorm n stream d) (Enc.renorm n e) := by
  induction n generalizing d e with
  | zero => exact h
  | succ n ih =>
    by_cases hs : Settled e.low e.high
    · rwa [enc_renorm_of_settled hs, dec_renorm_of_settled (hf.settled_iff.mpr hs)]
    · rw [enc_renorm_succ hs, dec_renorm_succ (mt hf.settled_iff.mp hs)]
      exact ih (h.pass hf hr hs) (hf.pass hr hs stream) (hr.encPass hs)

theorem InStep.narrow (h : InStep stream d e) (cum : Table Word 257) (b : Byte) :
    InStep stream (decNarrow cum d b) (encNarrow cum e b) := by
  obtain ⟨hl, hh, hpos, hv⟩ := h
  refine ⟨?_, ?_, hpos, hv⟩ <;> simp only [decNarrow, encNarrow, hl, hh]

theorem InStep.symbol {b : Byte} (h : InStep stream d e) (hf : Follows (decNarrow cum d b) (encNarrow cum e b))
    (hr : InRange (encNarrow cum e b)) : InStep stream (d.symbol cum stream b) (e.symbol cum b) :=
  (h.narrow cum b).renorm hf hr renormPasses

theorem inStep_start (stream : Bits) : InStep stream (decStart stream) Enc.start :=
  ⟨rfl, rfl, rfl, rfl⟩

/-- A stream inside the interval of the whole body decodes to the body (43_arith.md R240). -/
theorem arithDecodeFrom_of_arithEncodeFrom (hp : Partition cum) {body : List Byte} {f : Enc} (hr : Ready cum e)
    (h : InStep stream d e) (henc : arithEncodeFrom cum e body = some f) (hc : Covers stream f) :
    arithDecodeFrom cum stream body.length d = some body := by
  induction body generalizing d e with
  | nil => rfl
  | cons b rest ih =>
    obtain ⟨hb, hrest⟩ := arithEncodeFrom_cons_eq_some henc
    have hin := hr.inRange_encNarrow hp hb
    have hcov : Covers stream (encNarrow cum e b) :=
      .of_renorm hin (.of_arithEncodeFrom hp (hr.symbol hp hb) hrest hc)
    have hf := (h.narrow cum b).follows hcov
    have hsym : symbolAt cum (target d (cumAt cum 256)) = some b := by
      obtain ⟨hb1, hb2⟩ := target_holds_of_narrow (hp.lt_of_ne hb) (hp.succ_le_total b)
        (by rw [h.low_eq, h.high_eq]; exact hr.total_le) hf.low_le hf.le_high
      exact hp.symbolAt_of_holds hb1 hb2
    rw [List.length_cons, arithDecodeFrom_succ hsym,
      ih (hr.symbol hp hb) (h.symbol hf hin) hrest, Option.map_some]

end

/-- The bits of a body decode to the body (43_arith.md R240). -/
theorem arithDecode_arithEncode {cum : Table Word 257} (hp : Partition cum) {body : List Byte} {bits : Bits}
    (h : arithEncode cum body = some bits) : arithDecode cum bits body.length = some body := by
  cases body with
  | nil => rfl
  | cons b rest =>
    rw [arithEncode_of_ne (List.cons_ne_nil b rest)] at h
    obtain ⟨e, he, rfl⟩ := Option.map_eq_some_iff.mp h
    have hpos : cumAt cum 256 ≠ 0 := by
      have hlt := hp.lt_of_ne (arithEncodeFrom_cons_eq_some he).1
      have hle := hp.succ_le_total b
      omega
    rw [List.length_cons, arithDecode_of_total_pos (Nat.succ_ne_zero _) hpos]
    exact arithDecodeFrom_of_arithEncodeFrom hp (ready_start hp) (inStep_start _) he
      (covers_terminated ((ready_start hp).of_arithEncodeFrom hp he).settled)

/-- A run of ARITH_ENC that commits stored the bits of the body packed. -/
theorem arithEncBody_commit {p : Operands} {s t : State} (h : arithEncBody p s = .commit t) :
    ∃ bits, arithEncode s.cum (s.source p) = some bits
      ∧ storePacked p bits { s with symCount := p.srcLen } = .commit t := by
  cases hbits : arithEncode s.cum (s.source p) with
  | none =>
    rw [arithEncBody_of_none hbits] at h
    cases h
  | some bits => exact ⟨bits, rfl, (arithEncBody_of_some hbits).symm.trans h⟩

/-- A source range that holds what a packed store wrote, with its BIT_LEN, holds the bits that were stored. -/
theorem sourceBits_of_storePacked {p q : Operands} {bits : Bits} {s t u : State}
    (h : storePacked p bits s = .commit t) (hbitLen : q.bitLen = t.bitLen)
    (hbytes : ∀ j, j < t.outLen.toNat → u.readByte (q.srcAddr.toNat + j) = t.readByte (p.dstAddr.toNat + j)) :
    u.sourceBits q = bits ∧ ceil8 q.bitLen.toNat = t.outLen.toNat := by
  obtain ⟨hmax, _, rfl⟩ := storePacked_commit h
  have hlen : q.bitLen.toNat = bits.length := by
    rw [hbitLen]
    exact Nat.mod_eq_of_lt (Nat.lt_succ_of_le hmax)
  have hceil : (BitVec.ofNat 32 (ceil8 bits.length)).toNat = ceil8 bits.length := by
    rw [BitVec.toNat_ofNat, ceil8]
    omega
  rw [State.sourceBits, hlen]
  refine ⟨(unpackBits_congr fun j hj => hbytes j (hceil.symm ▸ hj)).trans ?_, hceil.symm⟩
  exact unpackBits_writePacked s p.dstAddr.toNat bits

/-- Settles O55: the source range of `u` holds the bits of the body of `s` (`sourceBits_of_storePacked`), which decode
to that body (`arithDecode_arithEncode`). -/
theorem arithmeticRoundTrip : Obligations.ArithmeticRoundTrip := by
  intro s t u hinv henc hc hcum hearly hbytes hbitLen hcount hsrc hcap
  have hp := partition_of_passes hinv rfl (earlyCode_none_of_success henc hc)
  obtain ⟨w, hb, rfl⟩ := exec_success henc hc
  obtain ⟨bits, hbits, hstore⟩ := arithEncBody_commit hb
  obtain ⟨hstream, hceil⟩ := sourceBits_of_storePacked hstore hbitLen hbytes
  have hlen : (body s).length = s.operands.srcLen.toNat := readBytes_length s _ _
  have hdec : arithDecode u.cum (u.sourceBits u.operands) u.operands.symCount.toNat = some (body s) := by
    rw [hcum, hstream, hcount, ← hlen]
    exact arithDecode_arithEncode hp hbits
  obtain ⟨v, hexec, hdone, hheld, _⟩ :=
    exec_arithDec_fits hearly (hceil.trans_le hsrc) hdec (hlen.trans_le hcap)
  rw [hlen, BitVec.ofNat_toNat, BitVec.setWidth_eq] at hdone
  exact ⟨v, hexec, congrArg (fun x => x.status.errcode) hdone, congrArg State.outLen hdone, hheld⟩

end Sys2Proof.Proofs
end

section
/-! PACK and UNPACK (spec/44_bitpack.md): a bit and the byte 0x00 or 0x01 that holds it determine each other, so the
two commands are a packed store of the source bytes' bits (R260) and a store of the stream's bits one per byte (R262),
and each undoes the other (R263). The encoders end in the packed store of PACK (R261). -/

namespace Sys2Proof.Proofs

open Sys2Proof Sys2Proof.Machine Sys2Proof.Laws Sys2Proof.Claims

/-! ### Bits one per byte -/

@[simp] theorem bitsOfBytes_length (bs : List Byte) : (bitsOfBytes bs).length = bs.length := List.length_map _

@[simp] theorem bytesOfBits_length (bits : Bits) : (bytesOfBits bits).length = bits.length := List.length_map _

theorem isBitByte_iff {b : Byte} : isBitByte b = true ↔ b.toNat ≤ 1 := decide_eq_true_iff

/-- A byte that is a bit is 0x00 or 0x01. -/
theorem byte_of_le_one {b : Byte} (h : b.toNat ≤ 1) : b = 0 ∨ b = 1 := by
  rcases Nat.le_one_iff_eq_zero_or_eq_one.mp h with h | h
  · exact Or.inl (BitVec.eq_of_toNat_eq h)
  · exact Or.inr (BitVec.eq_of_toNat_eq h)

theorem bitsOfBytes_of_le_one {bs : List Byte} (h : ∀ b ∈ bs, b.toNat ≤ 1) :
    bitsOfBytes bs = bs.map (fun b => decide (b.toNat = 1)) :=
  List.map_congr_left fun b hb => by rcases byte_of_le_one (h b hb) with rfl | rfl <;> rfl

theorem bytesOfBits_le_one (bits : Bits) : ∀ b ∈ bytesOfBits bits, b.toNat ≤ 1 := by
  intro b hb
  obtain ⟨c, _, rfl⟩ := List.mem_map.mp hb
  cases c <;> decide

theorem bitsOfBytes_bytesOfBits (bits : Bits) : bitsOfBytes (bytesOfBits bits) = bits := by
  rw [bitsOfBytes, bytesOfBits, List.map_map]
  exact List.map_id'' (fun c => by cases c <;> rfl) bits

theorem bytesOfBits_bitsOfBytes {bs : List Byte} (h : ∀ b ∈ bs, b.toNat ≤ 1) :
    bytesOfBits (bitsOfBytes bs) = bs := by
  rw [bytesOfBits, bitsOfBytes, List.map_map]
  exact (List.map_congr_left fun b hb => by rcases byte_of_le_one (h b hb) with rfl | rfl <;> rfl).trans
    (List.map_id bs)

theorem bytesOfBits_getD (bits : Bits) (i : Nat) :
    (bytesOfBits bits).getD i 0 = if bits.getD i false then 1 else 0 :=
  List.getD_map bits false fun b : Bool => if b then (1 : Byte) else 0

theorem stream_getD (s : State) (a : Nat) {n i : Nat} (h : i < n) : (stream s a n).getD i false = streamBit s a i := by
  simp [stream, List.getD, h]

theorem body_length (s : State) : (body s).length = s.operands.srcLen.toNat := readBytes_length s _ _

theorem body_eq_of_holds {s : State} {bs : List Byte} (hlen : s.operands.srcLen.toNat = bs.length)
    (h : holds s s.operands.srcAddr.toNat bs) : body s = bs := by
  refine List.ext_getElem ((body_length s).trans hlen) fun i _ hi => ?_
  have hread := h i hi
  rw [List.getD_eq_getElem _ _ hi] at hread
  rw [← hread]
  simp [body]

/-! ### PACK -/

theorem packBody_of_mem {p : Operands} {s : State} (h : ∃ b ∈ s.source p, 1 < b.toNat) :
    packBody p s = .early .invalidInput := by
  refine if_neg fun hall => ?_
  obtain ⟨b, hb, hlt⟩ := h
  exact absurd (isBitByte_iff.mp (List.all_eq_true.mp hall b hb)) (Nat.not_le.mpr hlt)

theorem packBody_of_bits {p : Operands} {s : State} (h : ∀ b ∈ s.source p, b.toNat ≤ 1) :
    packBody p s = storePacked p (bitsOfBytes (s.source p)) s :=
  if_pos (List.all_eq_true.mpr fun b hb => isBitByte_iff.mpr (h b hb))

/-- A run of PACK that commits stored the bits of a source of bytes 0x00 and 0x01. -/
theorem packBody_commit {p : Operands} {s t : State} (h : packBody p s = .commit t) :
    (∀ b ∈ s.source p, b.toNat ≤ 1) ∧ storePacked p (bitsOfBytes (s.source p)) s = .commit t := by
  by_cases hbits : ∀ b ∈ s.source p, b.toNat ≤ 1
  · exact ⟨hbits, (packBody_of_bits hbits).symm.trans h⟩
  · push Not at hbits
    rw [packBody_of_mem hbits] at h
    cases h

/-- PACK of bits that fit the destination range. -/
theorem exec_pack_fits {s : State} (hearly : earlyCode .pack s = none) (hbits : ∀ b ∈ body s, b.toNat ≤ 1)
    (hcap : ceil8 s.operands.srcLen.toNat ≤ s.operands.dstCap.toNat) :
    ∃ t, exec .pack s = .next t
      ∧ doneWith s t (BitVec.ofNat 32 (ceil8 s.operands.srcLen.toNat)) s.operands.srcLen s.symCount
      ∧ holdsPacked t s.operands.dstAddr.toNat (bitsOfBytes (body s))
      ∧ sameOutside s t s.operands.dstAddr.toNat (ceil8 s.operands.srcLen.toNat) := by
  have hlen : (bitsOfBytes (body s)).length = s.operands.srcLen.toNat := by rw [bitsOfBytes_length, body_length]
  have hmax : (bitsOfBytes (body s)).length ≤ 0xFFFFFFFF := hlen ▸ Nat.le_of_lt_succ s.operands.srcLen.isLt
  have hstore := storePacked_of_fits hmax (hlen.symm ▸ hcap) s
  obtain ⟨hheld, hout⟩ := holdsPacked_of_storePacked hstore
  rw [hlen] at hout
  refine ⟨_, exec_of_bodyOf hearly ((packBody_of_bits hbits).trans hstore), ?_, hheld, hout⟩
  rw [hlen, BitVec.ofNat_toNat, BitVec.setWidth_eq]
  rfl

/-- Settles O56: past steps 2 to 4 a byte above 1 is INVALID_INPUT (`packBody_of_mem`), and otherwise the bits of the
source bytes are stored packed (`exec_pack_fits`) or do not fit. -/
theorem packWritesOneBitPerByte : Obligations.PackWritesOneBitPerByte := by
  intro s
  refine ⟨fun c hc => exec_earlyCode hc, fun h hbad => exec_of_bodyOf h (packBody_of_mem hbad),
    fun h hbits hcap => ?_, fun h hbits hcap => ?_⟩
  · have hover : s.operands.dstCap.toNat < ceil8 (bitsOfBytes (body s)).length := by
      rwa [bitsOfBytes_length, body_length]
    have hstore := (packBody_of_bits hbits).trans (storePacked_of_overflow (Or.inr hover) s)
    exact ⟨_, exec_of_bodyOf h hstore, failedLate_raiseLate s .dstOverflow⟩
  · rw [← bitsOfBytes_of_le_one hbits]
    exact exec_pack_fits h hbits hcap

/-! ### UNPACK -/

theorem unpackBody_of_short {p : Operands} (h : p.srcLen.toNat < ceil8 p.bitLen.toNat) (s : State) :
    unpackBody p s = .early .invalidInput :=
  if_pos (decide_eq_true h)

theorem unpackBody_of_long {p : Operands} (h : ceil8 p.bitLen.toNat ≤ p.srcLen.toNat) (s : State) :
    unpackBody p s = storeOutput p (bytesOfBits (s.sourceBits p)) s :=
  if_neg fun hshort => Nat.not_lt.mpr h (of_decide_eq_true hshort)

/-- A run of UNPACK that commits stored the bits of the stream one per byte. -/
theorem unpackBody_commit {p : Operands} {s t : State} (h : unpackBody p s = .commit t) :
    storeOutput p (bytesOfBits (s.sourceBits p)) s = .commit t := by
  rcases Nat.lt_or_ge p.srcLen.toNat (ceil8 p.bitLen.toNat) with hshort | hlen
  · rw [unpackBody_of_short hshort] at h
    cases h
  · exact (unpackBody_of_long hlen s).symm.trans h

theorem bytesOfBits_sourceBits_length (s : State) (p : Operands) :
    (bytesOfBits (s.sourceBits p)).length = p.bitLen.toNat := by
  rw [bytesOfBits_length, State.sourceBits, unpackBits_length]

/-- UNPACK of bits that fit the destination range. -/
theorem exec_unpack_fits {s : State} (hearly : earlyCode .unpack s = none)
    (hlen : ceil8 s.operands.bitLen.toNat ≤ s.operands.srcLen.toNat)
    (hcap : s.operands.bitLen.toNat ≤ s.operands.dstCap.toNat) :
    ∃ t, exec .unpack s = .next t
      ∧ doneWith s t s.operands.bitLen s.bitLen s.symCount
      ∧ holds t s.operands.dstAddr.toNat (bytesOfBits (s.sourceBits s.operands))
      ∧ sameOutside s t s.operands.dstAddr.toNat s.operands.bitLen.toNat := by
  have hsize := bytesOfBits_sourceBits_length s s.operands
  have hstore := storeOutput_of_fits (hsize.symm ▸ hcap) s
  have hheld := holds_of_storeOutput hstore
  refine ⟨_, exec_of_bodyOf hearly ((unpackBody_of_long hlen s).trans hstore), ?_, hheld,
    fun x hx => readByte_writeBytes_outside s _ x _ (hsize.symm ▸ hx)⟩
  rw [hsize, BitVec.ofNat_toNat, BitVec.setWidth_eq]
  rfl

/-- Settles O57: past steps 2 to 4 a source too short is INVALID_INPUT (`unpackBody_of_short`), and otherwise the bits
of the stream are stored one per byte (`exec_unpack_fits`) or do not fit. -/
theorem unpackWritesOneBytePerBit : Obligations.UnpackWritesOneBytePerBit := by
  intro s
  have hsize := bytesOfBits_sourceBits_length s s.operands
  refine ⟨fun c hc => exec_earlyCode hc, fun h hshort => exec_of_bodyOf h (unpackBody_of_short hshort s),
    fun h hlen hcap => ?_, fun h hlen hcap => ?_⟩
  · have hstore := (unpackBody_of_long hlen s).trans (storeOutput_of_overflow (hsize.symm ▸ hcap) s)
    exact ⟨_, exec_of_bodyOf h hstore, failedLate_raiseLate s .dstOverflow⟩
  · obtain ⟨t, hexec, hdone, hheld, hout⟩ := exec_unpack_fits h hlen hcap
    refine ⟨t, hexec, hdone, fun i hi => ?_, hout⟩
    rw [hheld i (hsize.symm ▸ hi), bytesOfBits_getD, ← stream_getD s _ hi]
    rfl

/-! ### The round trips, and the encoders' packing -/

/-- PACK of a source that holds bits one per byte. -/
theorem exec_pack_of_holds {s : State} {bits : Bits} (hearly : earlyCode .pack s = none)
    (hlen : s.operands.srcLen.toNat = bits.length) (h : holds s s.operands.srcAddr.toNat (bytesOfBits bits))
    (hcap : ceil8 bits.length ≤ s.operands.dstCap.toNat) :
    ∃ t, exec .pack s = .next t
      ∧ doneWith s t (BitVec.ofNat 32 (ceil8 bits.length)) s.operands.srcLen s.symCount
      ∧ holdsPacked t s.operands.dstAddr.toNat bits := by
  have hbody : body s = bytesOfBits bits := body_eq_of_holds (by rwa [bytesOfBits_length]) h
  obtain ⟨t, hexec, hdone, hheld, _⟩ :=
    exec_pack_fits hearly (hbody ▸ bytesOfBits_le_one bits) (hlen.symm ▸ hcap)
  rw [hlen] at hdone
  rw [hbody, bitsOfBytes_bytesOfBits] at hheld
  exact ⟨t, hexec, hdone, hheld⟩

/-- A packed store that commits writes BIT_LEN and OUT_LEN in full. -/
theorem lengths_of_storePacked {p : Operands} {bits : Bits} {s t : State} (h : storePacked p bits s = .commit t) :
    t.bitLen.toNat = bits.length ∧ t.outLen.toNat = ceil8 bits.length := by
  obtain ⟨hmax, _, rfl⟩ := storePacked_commit h
  refine ⟨Nat.mod_eq_of_lt (Nat.lt_succ_of_le hmax), Nat.mod_eq_of_lt ?_⟩
  rw [ceil8]
  omega

/-- UNPACK of what PACK wrote gives back the bytes that PACK read (44_bitpack.md R263). -/
theorem exec_unpack_of_pack {s t u : State} (hpack : exec .pack s = .next t) (hc : t.status.errcode = 0)
    (hearly : earlyCode .unpack u = none)
    (hbytes : ∀ j, j < t.outLen.toNat →
      u.readByte (u.operands.srcAddr.toNat + j) = t.readByte (s.operands.dstAddr.toNat + j))
    (hbitLen : u.operands.bitLen = t.bitLen) (hsrc : t.outLen.toNat ≤ u.operands.srcLen.toNat)
    (hcap : s.operands.srcLen.toNat ≤ u.operands.dstCap.toNat) :
    ∃ v, exec .unpack u = .next v ∧ doneWith u v s.operands.srcLen u.bitLen u.symCount
      ∧ holds v u.operands.dstAddr.toNat (body s) := by
  obtain ⟨w, hb, rfl⟩ := exec_success hpack hc
  obtain ⟨hbits, hstore⟩ := packBody_commit hb
  obtain ⟨hstream, hceil⟩ := sourceBits_of_storePacked hstore hbitLen hbytes
  have hlen : u.operands.bitLen = s.operands.srcLen := by
    refine BitVec.eq_of_toNat_eq ?_
    rw [hbitLen, complete_bitLen, (lengths_of_storePacked hstore).1, bitsOfBytes_length]
    exact body_length s
  obtain ⟨v, hexec, hdone, hheld, _⟩ := exec_unpack_fits hearly (hceil.trans_le hsrc) (hlen ▸ hcap)
  rw [hlen] at hdone
  rw [hstream, bytesOfBits_bitsOfBytes hbits] at hheld
  exact ⟨v, hexec, hdone, hheld⟩

/-- PACK of what UNPACK wrote gives back the bits that UNPACK read (44_bitpack.md R263). -/
theorem exec_pack_of_unpack {s t u : State} (hunpack : exec .unpack s = .next t) (hc : t.status.errcode = 0)
    (hearly : earlyCode .pack u = none)
    (hbytes : ∀ j, j < t.outLen.toNat →
      u.readByte (u.operands.srcAddr.toNat + j) = t.readByte (s.operands.dstAddr.toNat + j))
    (hsrc : u.operands.srcLen = t.outLen) (hcap : ceil8 t.outLen.toNat ≤ u.operands.dstCap.toNat) :
    ∃ v, exec .pack u = .next v
      ∧ doneWith u v (BitVec.ofNat 32 (ceil8 s.operands.bitLen.toNat)) s.operands.bitLen u.symCount
      ∧ holdsPacked v u.operands.dstAddr.toNat (s.sourceBits s.operands) := by
  obtain ⟨w, hb, rfl⟩ := exec_success hunpack hc
  have hstore := unpackBody_commit hb
  have hheld := holds_of_storeOutput hstore
  have hsize := bytesOfBits_sourceBits_length s s.operands
  have hout : w.outLen = s.operands.bitLen := by
    obtain ⟨_, rfl⟩ := storeOutput_commit hstore
    rw [hsize, BitVec.ofNat_toNat, BitVec.setWidth_eq]
  have hlen : (s.sourceBits s.operands).length = s.operands.bitLen.toNat := unpackBits_length ..
  rw [complete_outLen, hout] at hbytes hsrc hcap
  obtain ⟨v, hexec, hdone, hpacked⟩ := exec_pack_of_holds (bits := s.sourceBits s.operands) hearly
    (by rw [hsrc, hlen]) (fun j hj => (hbytes j (hsize ▸ hj)).trans (hheld j hj)) (hlen.symm ▸ hcap)
  rw [hlen, hsrc] at hdone
  exact ⟨v, hexec, hdone, hpacked⟩

/-- Settles O58: each direction is one command on the other's output (`exec_unpack_of_pack`, `exec_pack_of_unpack`). -/
theorem packAndUnpackRoundTrip : Obligations.PackAndUnpackRoundTrip := by
  refine ⟨fun s t u hpack hc hearly hbytes hbitLen hsrc hcap => ?_,
    fun s t u hunpack hc hearly hbytes hsrc hcap => ?_⟩
  · obtain ⟨v, hexec, hdone, hheld⟩ := exec_unpack_of_pack hpack hc hearly hbytes hbitLen hsrc hcap
    exact ⟨v, hexec, congrArg (fun x => x.status.errcode) hdone, congrArg State.outLen hdone, hheld⟩
  · obtain ⟨v, hexec, hdone, hheld⟩ := exec_pack_of_unpack hunpack hc hearly hbytes hsrc hcap
    exact ⟨v, hexec, congrArg (fun x => x.status.errcode) hdone, congrArg State.bitLen hdone, hheld⟩

/-- An encoder that commits stored bits packed, as PACK does. -/
theorem storePacked_of_encoder {i : Instr} (hi : i = .huffEnc ∨ i = .arithEnc) {p : Operands} {s t : State}
    (h : bodyOf i p s = .commit t) :
    ∃ bits, storePacked p bits { s with symCount := p.srcLen } = .commit t := by
  rcases hi with rfl | rfl
  · obtain ⟨bits, _, hstore⟩ := huffEncBody_commit h
    exact ⟨bits, hstore⟩
  · obtain ⟨bits, _, hstore⟩ := arithEncBody_commit h
    exact ⟨bits, hstore⟩

/-- The bits packed at two places determine the same bytes, padding included. -/
theorem readByte_eq_of_holdsPacked {t v : State} {a b j : Nat} {bits : Bits} (ht : holdsPacked t a bits)
    (hv : holdsPacked v b bits) (hj : j < ceil8 bits.length) : v.readByte (b + j) = t.readByte (a + j) := by
  refine BitVec.eq_of_getLsbD_eq fun k hk => ?_
  have hin : 8 * j + (7 - k) < 8 * ceil8 bits.length := by omega
  have hbit := (hv _ hin).trans (ht _ hin).symm
  rwa [streamBit, streamBit, show (8 * j + (7 - k)) / 8 = j by omega,
    show 7 - (8 * j + (7 - k)) % 8 = k by omega] at hbit

/-- Settles O60: the encoder stored some bits packed (`storePacked_of_encoder`), which `u` holds one per byte, so PACK
stores the same bits packed (`exec_pack_of_holds`). -/
theorem packIsTheEncodersPacking : Obligations.PackIsTheEncodersPacking := by
  intro i s t u hi henc hc hearly hsrc hbytes hcap
  obtain ⟨w, hb, rfl⟩ := exec_success henc hc
  obtain ⟨bits, hstore⟩ := storePacked_of_encoder hi hb
  obtain ⟨hbitLen, houtLen⟩ := lengths_of_storePacked hstore
  obtain ⟨hpacked, _⟩ := holdsPacked_of_storePacked hstore
  have hheld : holds u u.operands.srcAddr.toNat (bytesOfBits bits) := fun j hj => by
    rw [bytesOfBits_length] at hj
    rw [bytesOfBits_getD, ← hpacked j (by omega)]
    exact hbytes j (hbitLen.symm ▸ hj)
  obtain ⟨v, hexec, hdone, hsame⟩ :=
    exec_pack_of_holds hearly ((congrArg BitVec.toNat hsrc).trans hbitLen) hheld (houtLen ▸ hcap)
  rw [← houtLen, BitVec.ofNat_toNat, BitVec.setWidth_eq] at hdone
  exact ⟨v, hexec, congrArg (fun x => x.status.errcode) hdone, (congrArg State.bitLen hdone).trans hsrc,
    (congrArg State.outLen hdone :), fun j hj => readByte_eq_of_holdsPacked hpacked hsame (houtLen ▸ hj)⟩

end Sys2Proof.Proofs
end

section
/-! The errors a command raises (spec/60_exceptions.md R301, R307): the one outcome of its checks and of its own steps,
read off the tables and the source range, without the state it would commit. -/

namespace Sys2Proof.Proofs

open Sys2Proof Sys2Proof.Machine Sys2Proof.Laws Sys2Proof.Claims

/-! ### The error of a command's own steps -/

/-- The error steps 5 to 8 end in; none when they commit. -/
def raised : CmdResult → Option CmdError
  | .early e => some e
  | .late e => some e
  | .commit _ => none

@[simp] theorem raised_early (e : CmdError) : raised (.early e) = some e := rfl

@[simp] theorem raised_commit (t : State) : raised (.commit t) = none := rfl

/-- The error of a store to the destination range (40_control.md R155 step 7). -/
def storeError (p : Operands) (out : List Byte) : Option CmdError :=
  if p.dstCap.toNat < out.length then some .dstOverflow else none

/-- The error of a packed store (42_huffman.md R206, 43_arith.md R235, 44_bitpack.md R260). -/
def packedError (p : Operands) (bits : Bits) : Option CmdError :=
  if 0xFFFFFFFF < bits.length then some .dstOverflow else storeError p (packBits bits)

/-- The error of an encoder that found the given bits, if any (42_huffman.md R206, 43_arith.md R235). -/
def encoderError (p : Operands) (found : Option Bits) : Option CmdError :=
  found.elim (some .modelMismatch) (packedError p)

/-- The error of a decoder that found the given bytes, if any (42_huffman.md R208, 43_arith.md R237). -/
def decoderError (p : Operands) (found : Option (List Byte)) : Option CmdError :=
  if sourceTooShort p then some .invalidInput else found.elim (some .modelMismatch) (storeError p)

/-- The error of steps 5 to 8 of each command, in terms of what they read. -/
def ownError (i : Instr) (p : Operands) (s : State) : Option CmdError :=
  match i with
  | .nop | .clearModel | .scan | .buildTree | .buildCodes => none
  | .loadFreq =>
    if p.srcLen.toNat < imageSize then some .invalidInput
    else if 0xFFFFFFFF < countSum (s.imageCounts p.srcAddr.toNat) then some .invalidInput
    else none
  | .saveFreq => storeError p (freqImage s.freq)
  | .buildPart => if maxTotal < partitionTotal s.freq then some .precisionExhaustion else none
  | .huffEnc => encoderError p (huffEncode s.code (s.source p))
  | .huffDec => decoderError p (huffDecode s.arena (s.sourceBits p))
  | .arithEnc => encoderError p (arithEncode s.cum (s.source p))
  | .arithDec => decoderError p (arithDecode s.cum (s.sourceBits p) p.symCount.toNat)
  | .pack => if (s.source p).all isBitByte then packedError p (bitsOfBytes (s.source p)) else some .invalidInput
  | .unpack => if sourceTooShort p then some .invalidInput else storeError p (bytesOfBits (s.sourceBits p))

section
variable {p : Operands} {s : State} {e : CmdError}

theorem raised_storeOutput (p : Operands) (out : List Byte) (s : State) :
    raised (storeOutput p out s) = storeError p out :=
  apply_ite raised ..

theorem raised_storePacked (p : Operands) (bits : Bits) (s : State) :
    raised (storePacked p bits s) = packedError p bits := by
  unfold storePacked packedError
  rw [apply_ite raised, raised_storeOutput]
  rfl

theorem raised_huffEncBody (p : Operands) (s : State) :
    raised (huffEncBody p s) = encoderError p (huffEncode s.code (s.source p)) := by
  cases h : huffEncode s.code (s.source p) with
  | none => rw [huffEncBody_of_none h]; rfl
  | some bits => rw [huffEncBody_of_some h, raised_storePacked]; rfl

theorem raised_arithEncBody (p : Operands) (s : State) :
    raised (arithEncBody p s) = encoderError p (arithEncode s.cum (s.source p)) := by
  cases h : arithEncode s.cum (s.source p) with
  | none => rw [arithEncBody_of_none h]; rfl
  | some bits => rw [arithEncBody_of_some h, raised_storePacked]; rfl

theorem raised_huffDecBody (p : Operands) (s : State) :
    raised (huffDecBody p s) = decoderError p (huffDecode s.arena (s.sourceBits p)) := by
  unfold huffDecBody decoderError
  cases huffDecode s.arena (s.sourceBits p) with
  | none => exact apply_ite raised ..
  | some out => rw [apply_ite raised, raised_storeOutput]; rfl

theorem raised_arithDecBody (p : Operands) (s : State) :
    raised (arithDecBody p s) = decoderError p (arithDecode s.cum (s.sourceBits p) p.symCount.toNat) := by
  unfold arithDecBody decoderError
  cases arithDecode s.cum (s.sourceBits p) p.symCount.toNat with
  | none => exact apply_ite raised ..
  | some out => rw [apply_ite raised, raised_storeOutput]; rfl

theorem raised_bodyOf (i : Instr) (p : Operands) (s : State) : raised (bodyOf i p s) = ownError i p s := by
  cases i with
  | nop | clearModel | scan | buildTree | buildCodes => rfl
  | loadFreq => simp only [bodyOf, loadFreqBody, ownError, apply_ite raised, raised_early, raised_commit]
  | saveFreq => exact raised_storeOutput ..
  | buildPart => exact apply_ite raised ..
  | huffEnc => exact raised_huffEncBody p s
  | huffDec => exact raised_huffDecBody p s
  | arithEnc => exact raised_arithEncBody p s
  | arithDec => exact raised_arithDecBody p s
  | pack => simp only [bodyOf, packBody, ownError, apply_ite raised, raised_storePacked, raised_early]
  | unpack => simp only [bodyOf, unpackBody, ownError, apply_ite raised, raised_storeOutput, raised_early]

theorem EndsAlike.raised_eq {m : List Host.Cell} {r r' : CmdResult} (h : EndsAlike s m r r') :
    raised r' = raised r := by
  cases h <;> rfl

/-! ### The error of a command -/

/-- The error a command completes with: that of steps 2 to 4, or else that of its own steps. -/
def commandError (i : Instr) (s : State) : Option CmdError :=
  (earlyError (usesOf i) s.operands s).or (ownError i s.operands s)

/-- ERRCODE after a command is the code of that error. -/
theorem exec_errcode (i : Instr) (s : State) :
    ∃ t, exec i s = .next t ∧ t.status.errcode = outcomeCode (commandError i s) := by
  unfold commandError
  rw [← raised_bodyOf]
  rcases exec_cases i s with ⟨e, he, hx⟩ | ⟨he, ⟨e, hb, hx⟩ | ⟨e, hb, hx⟩ | ⟨t, hb, hx⟩⟩
  · exact ⟨_, hx, by rw [he]; rfl⟩
  all_goals exact ⟨_, hx, by rw [he, hb]; rfl⟩

theorem errcode_of_exec {i : Instr} {s t : State} (h : exec i s = .next t) :
    t.status.errcode = outcomeCode (commandError i s) := by
  obtain ⟨u, hx, hcode⟩ := exec_errcode i s
  obtain rfl := Host.Outcome.next.inj (hx.symm.trans h)
  exact hcode

/-! ### The errors of a command's row -/

/-- The errors steps 2 to 4 can raise for a row of the operand table (40_control.md R155). -/
def checkErrors (u : Uses) : List CmdError :=
  (if u.readsSrc || u.guardsCount then [.limitExceeded] else [])
    ++ (if u.readsSrc || u.writesDst then [.range] else [])
    ++ (if u.needs.isSome then [.modelNotBuilt] else [])

/-- The errors a command's own steps can raise (60_exceptions.md R301). -/
def ownErrors : Instr → List CmdError
  | .nop | .clearModel | .scan | .buildTree | .buildCodes => []
  | .loadFreq => [.invalidInput]
  | .saveFreq => [.dstOverflow]
  | .buildPart => [.precisionExhaustion]
  | .huffEnc | .arithEnc => [.modelMismatch, .dstOverflow]
  | .huffDec | .arithDec => [.invalidInput, .modelMismatch, .dstOverflow]
  | .pack | .unpack => [.invalidInput, .dstOverflow]

/-- A check raises its error only for a row that uses what it checks. -/
theorem mem_checkErrors {u : Uses} (h : earlyError u p s = some e) : e ∈ checkErrors u := by
  rcases (earlyError_some_iff ..).mp h with ⟨hlim, rfl⟩ | ⟨_, hrange, rfl⟩ | ⟨_, _, hbit, rfl⟩
  · have huse : (u.readsSrc || u.guardsCount) = true := by
      simp only [limitExceeded, Bool.and_eq_true, Bool.or_eq_true] at hlim ⊢
      exact hlim.2.imp And.left And.left
    simp [checkErrors, huse]
  · have huse : (u.readsSrc || u.writesDst) = true := by
      simp only [rangeFails, Bool.and_eq_true, Bool.or_eq_true] at hrange ⊢
      exact hrange.imp And.left (Or.elim · And.left (·.2.1))
    simp [checkErrors, huse]
  · have huse : u.needs.isSome = true := by
      cases hn : u.needs with
      | none => simp [notBuilt, hn] at hbit
      | some v => rfl
    simp [checkErrors, huse]

theorem eq_of_storeError {out : List Byte} (h : storeError p out = some e) : e = .dstOverflow := by
  unfold storeError at h
  split at h <;> cases h
  rfl

theorem eq_of_packedError {bits : Bits} (h : packedError p bits = some e) : e = .dstOverflow := by
  unfold packedError at h
  split at h
  · cases h
    rfl
  · exact eq_of_storeError h

theorem mem_of_encoderError {found : Option Bits} (h : encoderError p found = some e) :
    e ∈ [CmdError.modelMismatch, .dstOverflow] := by
  cases found with
  | none => cases h; decide
  | some bits => rw [eq_of_packedError h]; decide

theorem mem_of_decoderError {found : Option (List Byte)} (h : decoderError p found = some e) :
    e ∈ [CmdError.invalidInput, .modelMismatch, .dstOverflow] := by
  unfold decoderError at h
  split at h
  · cases h
    decide
  · cases found with
    | none => cases h; decide
    | some out => rw [eq_of_storeError h]; decide

theorem mem_ownErrors {i : Instr} (h : ownError i p s = some e) : e ∈ ownErrors i := by
  cases i with
  | nop | clearModel | scan | buildTree | buildCodes => cases h
  | loadFreq =>
    simp only [ownError] at h
    split at h
    · cases h; decide
    · split at h <;> cases h
      decide
  | saveFreq => rw [eq_of_storeError h]; decide
  | buildPart =>
    simp only [ownError] at h
    split at h <;> cases h
    decide
  | huffEnc | arithEnc => exact mem_of_encoderError h
  | huffDec | arithDec => exact mem_of_decoderError h
  | pack =>
    simp only [ownError] at h
    split at h
    · rw [eq_of_packedError h]; decide
    · cases h; decide
  | unpack =>
    simp only [ownError] at h
    split at h
    · cases h; decide
    · rw [eq_of_storeError h]; decide

theorem mem_of_commandError {i : Instr} (h : commandError i s = some e) :
    e ∈ checkErrors (usesOf i) ++ ownErrors i := by
  rw [List.mem_append]
  rcases Option.or_eq_some_iff.mp h with hearly | ⟨_, hown⟩
  · exact .inl (mem_checkErrors hearly)
  · exact .inr (mem_ownErrors hown)

end

/-- The codes a command can complete with: 0, and those of the errors of its checks and of its own steps. -/
def rowCodes (i : Instr) : List (BitVec 4) := 0 :: (checkErrors (usesOf i) ++ ownErrors i).map errorCode

theorem outcomeCode_commandError_mem (i : Instr) (s : State) : outcomeCode (commandError i s) ∈ rowCodes i := by
  cases h : commandError i s with
  | none => exact List.mem_cons_self
  | some e => exact List.mem_cons_of_mem _ (List.mem_map_of_mem (mem_of_commandError h))

/-- Settles O33: each row of R301 is `rowCodes` of its command, and ERRCODE is one of them. -/
theorem commandsRaiseOnlyTheirErrors : Obligations.CommandsRaiseOnlyTheirErrors := by
  intro i s t h
  have hmem : t.status.errcode ∈ rowCodes i := errcode_of_exec h ▸ outcomeCode_commandError_mem i s
  cases i <;> exact hmem

/-! ### A failed command issued again -/

/-- P is there for a running command only, and equals the operand registers (40_control.md R151). -/
theorem operands_eq_liveOperands {s : State} (h : Inv s) : s.operands = s.liveOperands := by
  cases hl : s.latched with
  | none => exact operands_idle hl
  | some p => rw [operands_latched hl, h.latchedCurrent p hl]

/-- The bytes drawn over the destination range lie outside the source range, since the range check of step 3 passed. -/
theorem sameSource_scrambleDst {i : Instr} {p : Operands} {s : State} (h : earlyError (usesOf i) p s = none)
    (hw : (usesOf i).writesDst = true) (hr : readsSource i = true) : SameSource p s (s.scrambleDst p).mem := by
  obtain ⟨_, hrange, _⟩ := (earlyError_none_iff ..).mp h
  rw [readsSource_eq] at hr
  have hapart : rangesOverlap p = false := by
    simp only [rangeFails, hr, hw, Bool.true_and, Bool.or_eq_false_iff] at hrange
    exact hrange.2.2
  have hlen : (s.drawnBytes p.dstCap.toNat).length = p.dstCap.toNat := by simp [State.drawnBytes]
  simp only [rangesOverlap, Bool.and_eq_false_iff, decide_eq_false_iff_not] at hapart
  intro x hlow hhigh
  exact readByte_writeBytes_outside s _ x _ (by omega)

/-- After an error over a MEM with the same source range the command, issued again, finds the same operands, tables and
source, so it raises the same error. -/
theorem commandError_issueNow {i : Instr} {s : State} {m : List Host.Cell} (hp : s.operands = s.liveOperands)
    (hsrc : readsSource i = true → SameSource s.operands s m) (d : Nat) (e : CmdError) (w : Word) :
    commandError i ((({ s with mem := m, draws := d } : State).complete (some e)).issueNow w) = commandError i s := by
  have hown : ownError i s.operands { s with mem := m } = ownError i s.operands s := by
    rw [← raised_bodyOf, ← raised_bodyOf]
    exact (bodyOf_endsAlike hsrc).raised_eq
  calc commandError i ((({ s with mem := m, draws := d } : State).complete (some e)).issueNow w)
      = (earlyError (usesOf i) s.liveOperands s).or (ownError i s.liveOperands { s with mem := m }) := rfl
    _ = commandError i s := by rw [← hp, hown, commandError]

/-- Whatever error a command completed with, it is that of the command issued again. -/
theorem commandError_retry {i : Instr} {s t : State} (hinv : Inv s) (h : exec i s = .next t)
    (hc : t.status.errcode ≠ 0) (w : Word) : commandError i (t.issueNow w) = commandError i s := by
  have hp := operands_eq_liveOperands hinv
  rcases exec_cases i s with ⟨e, _, hx⟩ | ⟨hpass, ⟨e, _, hx⟩ | ⟨e, hb, hx⟩ | ⟨u, _, hx⟩⟩ <;>
    obtain rfl := Host.Outcome.next.inj (hx.symm.trans h)
  · exact commandError_issueNow hp (fun _ _ _ _ => rfl) s.draws e w
  · exact commandError_issueNow hp (fun _ _ _ _ => rfl) s.draws e w
  · exact commandError_issueNow hp (sameSource_scrambleDst hpass (bodyOf_late hb).1) _ e w
  · exact absurd rfl hc

/-- Settles O31: ERRCODE is the code of `commandError`, and a retry has the same one (`commandError_retry`). -/
theorem retryRaisesTheSameError : Obligations.RetryRaisesTheSameError := by
  intro i s t hinv h hc
  obtain ⟨u, hx, hcode⟩ := exec_errcode i (t.issueNow (encode i))
  exact ⟨u, hx, by rw [hcode, commandError_retry hinv h hc, errcode_of_exec h]⟩

end Sys2Proof.Proofs
end

section
/-! The reset input (spec/70_reset_and_hazards.md R340): what the core holds after it, whatever was running. -/

namespace Sys2Proof.Proofs

open Sys2Proof Sys2Proof.Machine Sys2Proof.Laws Sys2Proof.Claims

@[simp] theorem resetInput_status (s : State) : s.resetInput.status = ⟨false, false, false, 0, false⟩ := rfl

/-- DONE is 0 after reset, so IRQ is (10_state.md R78). -/
@[simp] theorem resetInput_irq (s : State) : s.resetInput.irq = false := rfl

/-- No byte is written yet after reset, so every byte of MEM is the one drawn at this reset (20_memory.md R101). -/
theorem readByte_resetInput (s : State) (a : Nat) :
    s.resetInput.readByte a = Config.powerOnByte (s.resets + 1) a := rfl

/-- HOST's next operation leaves the queue before the reset, and the turns left go with the plan. -/
theorem hostStep_reset (rest : List HostOp) (s : State) :
    hostStep .reset rest s = .next ({ s with host := rest } : State).resetInput := rfl

/-- Settles O5: HOST moves (`step_of_host`), and its step is `State.resetInput` (`hostStep_reset`), after which ENGINE
has no command to complete. -/
theorem resetInputAbandonsTheCommand : Obligations.ResetInputAbandonsTheCommand := fun s rest hhost hengine =>
  ⟨({ s with host := rest } : State).resetInput, (step_of_host hengine hhost).trans (hostStep_reset rest s), rfl,
    resetInput_status _, resetInput_irq _, readByte_resetInput _⟩

end Sys2Proof.Proofs
end
